-- ==== Sys2Proof/Word.lean ====
section
/-! DEFINITION. The machine's words: bytes, 16-bit fields, the 32-bit period stamp, and a table of a fixed
number of like records (00_scope.md, Conventions). -/

namespace Sys2Proof

/-- One byte, as the console link, the drive link and the rig image carry it (Chapter 12). -/
abbrev Byte := BitVec 8

/-- A two-byte field of a frame or record. -/
abbrev Half := BitVec 16

/-- The period count and every period stamp: 32 bits, wrapping (R176). -/
abbrev Stamp := BitVec 32

/-- A fixed number of records of one kind, numbered from 0: axes, lanes, steps, pairs, ports, lines. -/
structure Table (n : Nat) (α : Type) where
  cells : List α
  size : cells.length = n
  deriving DecidableEq, Repr

namespace Table

variable {n : Nat} {α β : Type}

/-- The record at a number. -/
def get (t : Table n α) (i : Fin n) : α :=
  t.cells[i.val]'(by rw [t.size]; exact i.isLt)

/-- The table with one record replaced. -/
def set (t : Table n α) (i : Fin n) (v : α) : Table n α :=
  ⟨t.cells.set i.val v, by rw [List.length_set, t.size]⟩

/-- Every record the same. -/
def fill (n : Nat) (v : α) : Table n α :=
  ⟨List.replicate n v, List.length_replicate⟩

/-- Each record replaced by a value computed from its number and itself. -/
def mapIdx (f : Fin n → α → β) (t : Table n α) : Table n β :=
  ⟨(List.finRange n).map (fun i => f i (t.get i)), by simp⟩

/-- One record changed by a function. -/
def modify (t : Table n α) (i : Fin n) (f : α → α) : Table n α :=
  t.set i (f (t.get i))

/-- Each record changed by one function. -/
def map (f : α → β) (t : Table n α) : Table n β :=
  t.mapIdx (fun _ v => f v)

/-- The numbers whose record passes a test, ascending. -/
def indices (t : Table n α) (p : α → Bool) : List (Fin n) :=
  (List.finRange n).filter (fun i => p (t.get i))

end Table

end Sys2Proof
end

