-- ==== Sys2Proof/Config.lean ====
section
/-! DEFINITION. The fixed sizes and bounds of the part. The manual leaves no value open after a step, so there is
no free value here. -/

namespace Sys2Proof.Config

/-- Units of 16.16 mm in one millimetre (00_scope.md, Position). -/
def unit : Nat := 65536

/-- Entries of the move pool (R42). -/
def poolSize : Nat := 2048

/-- Events a port's queue holds (R178). -/
def eventQueueSize : Nat := 32

/-- Replies waiting at which a frame is an overrun (R172). -/
def overrunDepth : Nat := 3

/-- Events one FETCH takes at most (R180). -/
def fetchSize : Nat := 8

/-- The release timeout in periods (R103). -/
def releaseTimeout : Nat := 200

/-- GOOD replies in a row that bring a station ONLINE (R161). -/
def joinCount : Nat := 8

/-- Failed replies in a row that lose an ONLINE station (R162). -/
def lossRun : Nat := 3

/-- The value at which 16-bit counters saturate (R159, R163, R170). -/
def counterMax : Nat := 65535

/-- The longest group duration of a plan (R93). -/
def durationMax : Nat := 1048575

/-- The real-time rate, and the highest (R29). -/
def fullRate : Nat := 256

/-- The most the effective rate moves at one period start (R105). -/
def rateSlew : Nat := 2

/-- The reply window after a SETPOINT frame, in 0.1 µs (R156, R158). -/
def replyWindow : Nat := 500

/-- Bytes of a STATUS frame (R195). -/
def statusLength : Nat := 14

/-- The longest body of a console frame (R170). -/
def bodyMax : Nat := 250

/-- Bytes of the rig image (R197). -/
def imageSize : Nat := 935

/-- The repeat value that means endless (R30). -/
def endless : Nat := 255

end Sys2Proof.Config
end

