-- ==== Sys2Proof/Syntax.lean ====
section
/-! DEFINITION. The commands: one constructor of Instr for each row of spec/opcode_table.json, with its operands.
Numbers that a request carries in its body keep the width of Table 12-2, since the owning block judges their range;
numbers of the part's own steps name what exists (lanes 0..7, axes 0..47, pairs 0..31). -/

namespace Sys2Proof

/-- Consoles and console ports CP0, CP1, CP2 (00_scope.md, Numbers and names). -/
abbrev Console := Fin 3
/-- Lanes 0..7. -/
abbrev LaneId := Fin 8
/-- Axes 0..47. -/
abbrev AxisId := Fin 48
/-- Clash-pair slots 0..31. -/
abbrev PairId := Fin 32
/-- Numbered steps 0..511. -/
abbrev StepNo := Fin 512
/-- The step-hold lines SH0..SH3. -/
abbrev HoldLine := Fin 4

/-- Fault causes of an axis (Table 1-2). -/
inductive FaultCause where
  | following | loadHigh | loadLow | linkLost | driveFault | lostTracking | brakeTimeout
  deriving DecidableEq, Repr

/-- The qualified input lines (R121). -/
inductive Line where
  | stopn
  | enable (c : Console)
  | hold (n : HoldLine)
  deriving DecidableEq, Repr

/-- A move entry as PUT STEP and DIRECT carry it (Table 12-2a); an absent field is none. -/
structure RawMove where
  axis : Byte
  target : Half
  cap : Option Byte
  delay : Option Half
  deriving DecidableEq, Repr

/-- The body of PUT STEP after the step number (Table 12-2). The move count is the length of the list. -/
structure RawStep where
  label : Half
  rs : Half
  tn : Half
  followKind : Byte
  followA : Half
  followB : Byte
  next : Half
  moves : List RawMove
  deriving DecidableEq, Repr

/-- An axis configuration record (Table 12-7). -/
structure RawConfig where
  present : Byte
  station : Byte
  low : Half
  high : Half
  vmax : Half
  rampFloor : Half
  followLimit : Half
  loadMin : Half
  loadMax : Half
  deriving DecidableEq, Repr

/-- The commands. `p` is the console port a request comes through and `tag` the TAG byte of its frame (R193). -/
inductive Instr where
  /-- PIN_RESET (R185): `written` is how many byte writes of a save in progress had been made (R191). -/
  | pinReset (written : Nat)
  /-- IMAGE_LOAD_COMPLETION (R188): `found` lists cells of the memory found otherwise than the part left them. -/
  | imageLoadCompletion (found : List (Nat × Byte))
  /-- SAVE_COMPLETION (R190): `bad` lists cells that read back otherwise than they were written. -/
  | saveCompletion (bad : List (Nat × Byte))
  /-- PERIOD_START (R176). -/
  | periodStart
  /-- MOTION_GENERATOR_WORK (R100) for one lane. -/
  | motionGeneratorWork (l : LaneId)
  /-- STOP_TRAJECTORY_STEP (R117) of one axis. -/
  | stopTrajectoryStep (a : AxisId)
  /-- ARRIVAL (R112) of one axis. -/
  | arrival (a : AxisId)
  /-- STEP_COMPLETION (R74) of one lane. -/
  | stepCompletion (l : LaneId)
  /-- FOLLOW_EXPIRY (R77): one lane's TIMED count at a period start. -/
  | followExpiry (l : LaneId)
  /-- LINKED_DECREMENT (R78) taken by one lane. -/
  | linkedDecrement (l : LaneId)
  /-- RELEASE_TIMEOUT (R103) taken by one lane. -/
  | releaseTimeout (l : LaneId)
  /-- RELEASE_END (R104) taken by one lane. -/
  | releaseEnd (l : LaneId)
  /-- TRACKING_MARK (R102) for one axis. -/
  | trackingMark (a : AxisId)
  /-- PLAN_COMPLETION (R85). -/
  | planCompletion
  /-- PLAN_WITHDRAWAL (R86) of one lane. -/
  | planWithdrawal (l : LaneId)
  /-- PLAN_RESULT (R65) taken by one lane. -/
  | planResult (l : LaneId)
  /-- FAULT_REQUEST (R10): an axis and a cause. -/
  | faultRequest (a : AxisId) (cause : FaultCause)
  /-- FAULT_NOTICE (R142) of an axis, taken by a lane. -/
  | faultNotice (l : LaneId) (a : AxisId)
  /-- INTERLOCK_TRIP (R148) of a pair, taken by a lane. -/
  | interlockTrip (l : LaneId) (pair : PairId)
  /-- EMERGENCY (R126) taken by a lane. -/
  | emergency (l : LaneId)
  /-- ENABLE_HALT (R131): the loss of ENABLEc taken by a lane. -/
  | enableHalt (l : LaneId) (c : Console)
  /-- HOLD_ASSERTION (R80): an assertion of SHn taken by a lane. -/
  | holdAssertion (l : LaneId) (n : HoldLine)
  /-- RAW_LEVEL_CHANGE (R121): a line's raw level becomes high (true) or low (false). -/
  | rawLevelChange (line : Line) (high : Bool)
  /-- QUALIFIED_CHANGE (R121): a line's qualification timer reaches 10 ms. -/
  | qualifiedChange (line : Line)
  /-- DRIVE_ROUND (R153): the round goes on to the next present axis. -/
  | driveRound
  /-- STATUS_FRAME (R157): a reply on the bus, its latency in 0.1 µs and its bytes. -/
  | statusFrame (latency : Nat) (bytes : List Byte)
  /-- REPLY_WINDOW_EXPIRY (R156). -/
  | replyWindowExpiry
  /-- STATION_ONLINE_NOTICE (R166) for an axis. -/
  | stationOnlineNotice (a : AxisId)
  /-- STATION_LOST_NOTICE (R166) for an axis. -/
  | stationLostNotice (a : AxisId)
  /-- SUPERVISOR_REPLY_CHECK (R136) for an axis. -/
  | supervisorReplyCheck (a : AxisId)
  /-- CONSOLE_FRAME (R171): a port judges its oldest complete frame. -/
  | consoleFrame (p : Console)
  /-- FRAME_TIMEOUT (R170) at a port. -/
  | frameTimeout (p : Console)
  /-- REPLY_SENT (R174) at a port. -/
  | replySent (p : Console)
  /-- EVENT_POSTED (R178): the oldest posted event is offered to the ports. -/
  | eventPosted
  /-- TAKE (R25). -/
  | take (p : Console) (tag : Byte) (lane : Byte)
  /-- YIELD (R26). -/
  | yield (p : Console) (tag : Byte) (lane : Byte)
  /-- LOAD (R59). -/
  | load (p : Console) (tag : Byte) (lane : Byte) (step : Half)
  /-- GO (R61). -/
  | go (p : Console) (tag : Byte) (lane : Byte)
  /-- HALT (R32). -/
  | halt (p : Console) (tag : Byte) (lane : Byte)
  /-- CLEAR LANE (R60). -/
  | clearLane (p : Console) (tag : Byte) (lane : Byte)
  /-- SET RATE (R29). -/
  | setRate (p : Console) (tag : Byte) (lane : Byte) (rate : Half)
  /-- SET REPEAT (R30). -/
  | setRepeat (p : Console) (tag : Byte) (lane : Byte) (count : Byte)
  /-- SET HOLD LINE (R31). -/
  | setHoldLine (p : Console) (tag : Byte) (lane : Byte) (source : Byte)
  /-- DIRECT (R64). -/
  | direct (p : Console) (tag : Byte) (lane : Byte) (rs : Half) (tn : Half) (moves : List RawMove)
  /-- GET LANE (R33). -/
  | getLane (p : Console) (tag : Byte) (lane : Byte)
  /-- PUT STEP (R43). -/
  | putStep (p : Console) (tag : Byte) (step : Half) (body : RawStep)
  /-- DROP STEP (R47). -/
  | dropStep (p : Console) (tag : Byte) (step : Half)
  /-- GET STEP (R48). -/
  | getStep (p : Console) (tag : Byte) (selector : Byte) (number : Half)
  /-- PUT AXIS (R16), present other than 0. -/
  | putAxis (p : Console) (tag : Byte) (axis : Byte) (config : RawConfig)
  /-- PUT AXIS with present = no (R17). -/
  | putAxisRemove (p : Console) (tag : Byte) (axis : Byte)
  /-- GET AXIS (R18). -/
  | getAxis (p : Console) (tag : Byte) (axis : Byte)
  /-- LOCK SET (R15): bit n of value and mask is axis n. -/
  | lockSet (p : Console) (tag : Byte) (value : BitVec 48) (mask : BitVec 48)
  /-- CLEAR FAULT (R19). -/
  | clearFault (p : Console) (tag : Byte) (axis : Byte)
  /-- PUT PAIR (R145). -/
  | putPair (p : Console) (tag : Byte) (pair : Byte) (upper : Byte) (lower : Byte) (gap : Half)
  /-- DROP PAIR (R146). -/
  | dropPair (p : Console) (tag : Byte) (pair : Byte)
  /-- GET STATION (R167). -/
  | getStation (p : Console) (tag : Byte) (axis : Byte) (clear : Byte)
  /-- POLL (R182). -/
  | poll (p : Console) (tag : Byte)
  /-- FETCH (R180). -/
  | fetch (p : Console) (tag : Byte)
  /-- SET FILTER (R181). -/
  | setFilter (p : Console) (tag : Byte) (filter : Byte)
  /-- E-STOP (R124). -/
  | eStop (p : Console) (tag : Byte)
  /-- CLEAR E-STOP (R125). -/
  | clearEStop (p : Console) (tag : Byte)
  /-- MASTER CLEAR (R183). -/
  | masterClear (p : Console) (tag : Byte)
  /-- SAVE IMAGE (R189). -/
  | saveImage (p : Console) (tag : Byte)
  /-- BYTE_RECEIVED (R170): a byte at a port, and whether its stop bit was missing. -/
  | byteReceived (p : Console) (byte : Byte) (framingFault : Bool)
  deriving DecidableEq, Repr

end Sys2Proof
end

