-- ==== Sys2Proof/WellFormed.lean ====
section
/-! DEFINITION. Which command terms spell something that can reach the part: what the types of the operands do not
already say. Exec gives every term a meaning all the same. -/

namespace Sys2Proof

/-- Bytes of one move entry on the link (Table 12-2a): 4 to 7. -/
def RawMove.length (m : RawMove) : Nat :=
  4 + (if m.cap.isSome then 1 else 0) + (if m.delay.isSome then 2 else 0)

/-- Bytes of a move list on the link. -/
def movesLength (ms : List RawMove) : Nat :=
  (ms.map RawMove.length).sum

/-- Cells of the serial memory: addresses of the image, strictly rising. -/
def cellsOk : List (Nat × Byte) → Bool
  | [] => true
  | [c] => decide (c.1 < Config.imageSize)
  | c :: d :: rest => decide (c.1 < d.1) && cellsOk (d :: rest)

namespace Instr

/-- The well-formedness of a command. -/
def wellFormed : Instr → Bool
  | .pinReset written => decide (written ≤ Config.imageSize + 2)
  | .imageLoadCompletion found => cellsOk found
  | .saveCompletion bad => cellsOk bad
  | .statusFrame latency bytes =>
    decide (latency ≤ Config.replyWindow) && decide (0 < bytes.length) && decide (bytes.length ≤ Config.statusLength)
  | .direct _ _ _ _ _ moves => decide (6 + movesLength moves ≤ Config.bodyMax)
  | .putStep _ _ _ body => decide (15 + movesLength body.moves ≤ Config.bodyMax)
  | .putAxis _ _ _ config => decide (config.present ≠ 0)
  | .periodStart | .motionGeneratorWork _ | .stopTrajectoryStep _ | .arrival _ | .stepCompletion _
  | .followExpiry _ | .linkedDecrement _ | .releaseTimeout _ | .releaseEnd _ | .trackingMark _
  | .planCompletion | .planWithdrawal _ | .planResult _ | .faultRequest _ _ | .faultNotice _ _
  | .interlockTrip _ _ | .emergency _ | .enableHalt _ _ | .holdAssertion _ _ | .rawLevelChange _ _
  | .qualifiedChange _ | .driveRound | .replyWindowExpiry | .stationOnlineNotice _ | .stationLostNotice _
  | .supervisorReplyCheck _ | .consoleFrame _ | .frameTimeout _ | .replySent _ | .eventPosted
  | .take _ _ _ | .yield _ _ _ | .load _ _ _ _ | .go _ _ _ | .halt _ _ _ | .clearLane _ _ _
  | .setRate _ _ _ _ | .setRepeat _ _ _ _ | .setHoldLine _ _ _ _ | .getLane _ _ _
  | .dropStep _ _ _ | .getStep _ _ _ _ | .putAxisRemove _ _ _ | .getAxis _ _ _ | .lockSet _ _ _ _
  | .clearFault _ _ _ | .putPair _ _ _ _ _ _ | .dropPair _ _ _ | .getStation _ _ _ _ | .poll _ _
  | .fetch _ _ | .setFilter _ _ _ | .eStop _ _ | .clearEStop _ _ | .masterClear _ _ | .saveImage _ _
  | .byteReceived _ _ _ => true

end Instr

end Sys2Proof
end

