-- ==== Sys2Proof/Machine/State.lean ====
section
/-! DEFINITION. The state of the part as plain data: every record, queue, timer, counter and pin the manual gives it,
with its reset values, and the messages between blocks that have been sent and not yet taken. -/

namespace Sys2Proof.Machine

/-! ### Lanes (Chapter 2) -/

/-- Lane states (Table 4-1). -/
inductive LaneState where
  | idle | ready | planning | releasing | running | stopping | held | follow
  deriving DecidableEq, Repr

/-- What a base or current step names: a numbered step or the lane's private direct step (Table 2-1). -/
inductive StepRef where
  | numbered (n : StepNo)
  | direct
  deriving DecidableEq, Repr

/-- The halt cause of a lane (Table 2-1). -/
inductive HaltCause where
  | none | halt | enable | fault (a : AxisId) | interlock (pair : PairId) | estop
  deriving DecidableEq, Repr

/-- The follow kind of a lane in FOLLOW (Table 2-1). -/
inductive FollowKind where
  | timed
  | linked (l : LaneId)
  deriving DecidableEq, Repr

/-- Direction of travel of a plan member (R88); a stationary member has none. -/
inductive Direction where
  | up | down | none
  deriving DecidableEq, Repr

/-- One member of a plan record (R97); positions and distances in 16.16 mm, the target in whole mm. -/
structure PlanMember where
  axis : AxisId
  start : Nat
  target : Nat
  distance : Nat
  direction : Direction
  delay : Nat
  span : Nat
  cruise : Nat
  clipped : Bool
  deriving DecidableEq, Repr

/-- A plan record: ramp R, duration T, its members, and the frozen profile time of a HELD lane (R97, R99). -/
structure PlanRecord where
  ramp : Nat
  duration : Nat
  members : List PlanMember
  frozen : Nat
  deriving DecidableEq, Repr

/-- The result of a completed plan (R85). -/
inductive PlanResult where
  | ok (plan : PlanRecord)
  | void (a : AxisId)
  | tooLong
  | interlock (pair : PairId)
  deriving DecidableEq, Repr

/-- The last-completed record (R74). -/
structure LastCompleted where
  step : StepRef
  stamp : Stamp
  resumed : Bool
  clipped : Bool
  deriving DecidableEq, Repr

/-- What has been delivered to a lane and not yet taken by it (R123, R131, R133, R142, R148). -/
inductive LaneMessage where
  | emergency
  | enableLoss (c : Console)
  | hold (n : HoldLine)
  | fault (a : AxisId)
  | trip (pair : PairId)
  deriving DecidableEq, Repr

/-- A lane record (Table 2-1, R22), and the model's own fields for what the lane has still to take. -/
structure Lane where
  state : LaneState
  controller : Option Console
  base : Option StepRef
  current : Option StepRef
  repeatSetting : Nat
  repeatRemaining : Nat
  followCounter : Nat
  followKind : Option FollowKind
  holdSource : Option HoldLine
  holdLatch : Bool
  requestedRate : Nat
  effectiveRate : Nat
  claimSet : List AxisId
  resume : Bool
  plan : Option PlanRecord
  haltCause : HaltCause
  seqEnd : Bool
  lastCompleted : Option LastCompleted
  /-- deliveries not yet taken (the model's own) -/
  inbox : List LaneMessage
  /-- the plan result delivered in this stay in PLANNING and not yet taken (the model's own) -/
  planResult : Option PlanResult
  /-- completions of the linked lane offered in this stay in FOLLOW and not yet taken (the model's own) -/
  decrements : Nat
  /-- this period start's TIMED count is still to be taken (the model's own) -/
  followDue : Bool
  deriving DecidableEq, Repr

/-- The lane record after pin reset (R39, Table 2-4). -/
def Lane.reset : Lane where
  state := .idle
  controller := none
  base := none
  current := none
  repeatSetting := 0
  repeatRemaining := 0
  followCounter := 0
  followKind := none
  holdSource := none
  holdLatch := false
  requestedRate := Config.fullRate
  effectiveRate := Config.fullRate
  claimSet := []
  resume := false
  plan := none
  haltCause := .none
  seqEnd := false
  lastCompleted := none
  inbox := []
  planResult := none
  decrements := 0
  followDue := false

/-! ### Axes (Chapter 1) -/

/-- The configuration of a present axis (Table 1-1). -/
structure AxisConfig where
  station : Nat
  low : Nat
  high : Nat
  vmax : Nat
  rampFloor : Nat
  followLimit : Nat
  loadMin : Nat
  loadMax : Nat
  deriving DecidableEq, Repr

/-- Axis states (Table 1-3). FAULTED carries the fault cause, which is present exactly then (R2). -/
inductive AxisState where
  | unconfigured | offline | rest | moving | stopping
  | faulted (cause : FaultCause)
  deriving DecidableEq, Repr

/-- An axis record (Tables 1-1 and 1-2). -/
structure Axis where
  config : Option AxisConfig
  state : AxisState
  lock : Bool
  owner : Option LaneId
  setpoint : Option Nat
  previous : Option Nat
  feedback : Option Nat
  load : Option Nat
  loadWarning : Bool
  /-- an arrival request sent and not yet taken (R112; the model's own) -/
  arriving : Bool
  deriving DecidableEq, Repr

/-- The axis record after pin reset (R20, Table 1-5). -/
def Axis.reset : Axis where
  config := none
  state := .unconfigured
  lock := true
  owner := none
  setpoint := none
  previous := none
  feedback := none
  load := none
  loadWarning := false
  arriving := false

/-! ### Cue Store (Chapter 3) -/

/-- A stored move entry (Table 3-2). -/
structure Move where
  axis : AxisId
  target : Nat
  cap : Option Nat
  delay : Option Nat
  deriving DecidableEq, Repr

/-- A follow mode with its parameters (Table 3-1). -/
inductive FollowMode where
  | manual
  | timed (wait : Nat)
  | linked (l : LaneId) (count : Nat)
  deriving DecidableEq, Repr

/-- A step record (Table 3-1); next is none for END. -/
structure Step where
  label : Nat
  rs : Nat
  tn : Nat
  follow : FollowMode
  next : Option StepNo
  moves : List Move
  deriving DecidableEq, Repr

/-- The Cue Store: the numbered slots and the private direct steps. The free count is computed (R42). -/
structure CueStore where
  slots : Table 512 (Option Step)
  privates : Table 8 (Option Step)
  deriving DecidableEq, Repr

/-- The empty store (R53). -/
def CueStore.reset : CueStore where
  slots := Table.fill 512 none
  privates := Table.fill 8 none

/-! ### Planner (Chapter 5) -/

/-- A member's inputs in the snapshot (R84, R88): cap and delay as the plan takes them; the state and the owner are read
with the rest, and the arithmetic does not use them. -/
structure MemberInput where
  axis : AxisId
  state : AxisState
  owner : Option LaneId
  target : Nat
  cap : Nat
  delay : Nat
  setpoint : Option Nat
  low : Nat
  high : Nat
  vmax : Nat
  rampFloor : Nat
  deriving DecidableEq, Repr

/-- An active pair with a member in the move list, in the snapshot (R84, R95): the reference position of an axis
outside the plan, absent when it has neither setpoint nor feedback. -/
structure PairInput where
  pair : PairId
  upper : AxisId
  lower : AxisId
  gap : Nat
  upperOutside : Option Nat
  lowerOutside : Option Nat
  deriving DecidableEq, Repr

/-- The plan in progress (R82) with its snapshot (R84); Tn as the plan takes it. -/
structure PlanJob where
  lane : LaneId
  resume : Bool
  withdrawn : Bool
  rs : Nat
  tn : Nat
  members : List MemberInput
  pairs : List PairInput
  deriving DecidableEq, Repr

/-- The Group Planner (R82), and the withdrawals sent to it and not yet taken (R86; the model's own). -/
structure Planner where
  queue : List LaneId
  inProgress : Option PlanJob
  withdrawals : List LaneId
  deriving DecidableEq, Repr

/-! ### Motion Generator (Chapter 6) -/

/-- A moving member in a motion context: its tracking mark and its last evaluation (Table 6-1). -/
structure ContextMember where
  axis : AxisId
  tracking : Bool
  lastEval : Option Int
  deriving DecidableEq, Repr

/-- A motion context (Table 6-1). The effective rate is held once, in the lane record (R22). -/
structure MotionContext where
  profileTime : Nat
  releaseCount : Nat
  members : List ContextMember
  /-- the release expiry reported with its untracked members, not yet taken: no mark changes from here on (R103; the
  model's own) -/
  expiry : Option (List AxisId)
  /-- the end of the profile reported and not yet taken (R113; the model's own) -/
  profileEnd : Bool
  /-- this period start's work is still to be done (R100; the model's own) -/
  due : Bool
  deriving DecidableEq, Repr

/-- A stop record (Table 6-2). -/
structure StopRecord where
  velocity : Nat
  direction : Direction
  rampFloor : Nat
  index : Nat
  posted : Bool
  /-- this period start's step is still to be made (R100; the model's own) -/
  due : Bool
  deriving DecidableEq, Repr

/-! ### Stop Logic (Chapter 7) -/

/-- One input line (R121): true is high. The timer is running or idle. -/
structure LineState where
  raw : Bool
  qualified : Bool
  timing : Bool
  deriving DecidableEq, Repr

/-! ### Supervisor (Chapter 8) -/

/-- A clash-pair entry (Table 8-3). -/
structure ClashPair where
  upper : AxisId
  lower : AxisId
  gap : Nat
  lastGap : Option Int
  deriving DecidableEq, Repr

/-! ### Drive Link (Chapter 9) -/

/-- Station states (Table 9-3). -/
inductive StationState where
  | offline | joining | online | lost
  deriving DecidableEq, Repr

/-- Drive modes (6.6). -/
inductive DriveMode where
  | follow | hold | brake | identify
  deriving DecidableEq, Repr

/-- The frame record (Table 9-1): what the last frame sent carried. -/
structure FrameRecord where
  setpoint : Nat
  mode : DriveMode
  sequence : BitVec 4
  /-- built after its axis last entered MOVING (R102; the model's own) -/
  sinceMoving : Bool
  deriving DecidableEq, Repr

/-- What a STATUS frame reports (Table 12-6). -/
structure Reply where
  tracking : Bool
  braked : Bool
  fault : Bool
  feedback : Nat
  load : Nat
  deriving DecidableEq, Repr

/-- A station entry (Table 9-1). A counter's SATURATED flag is read from the counter (R159). -/
structure StationEntry where
  address : Nat
  state : StationState
  joining : Nat
  badRun : Nat
  sequence : BitVec 4
  frame : Option FrameRecord
  crcErrors : Nat
  noReplies : Nat
  stales : Nat
  drops : Nat
  lastLatency : Nat
  peakLatency : Nat
  outage : Option Nat
  outageRecord : Nat
  lastReply : Option Reply
  deriving DecidableEq, Repr

/-- A new entry for a station address (R152). -/
def StationEntry.new (address : Nat) : StationEntry where
  address := address
  state := .offline
  joining := 0
  badRun := 0
  sequence := 0
  frame := none
  crcErrors := 0
  noReplies := 0
  stales := 0
  drops := 0
  lastLatency := 0
  peakLatency := 0
  outage := none
  outageRecord := 0
  lastReply := none

/-- The listening slot after a frame: its axis, and whether the entry was discarded meanwhile (R154, R156). -/
structure Slot where
  axis : AxisId
  orphan : Bool
  deriving DecidableEq, Repr

/-- The drive bus: the axis number the round has reached, the open slot, and the last frame sent on DLTX. -/
structure Link where
  round : Option Nat
  slot : Option Slot
  sent : List Byte
  deriving DecidableEq, Repr

/-! ### Console ports (Chapter 10) -/

/-- Result codes (Table 12-3). -/
inductive ResultCode where
  | ok | badLength | unknown | badArg | portBusy | starting | notController | owned | wrongState | notEnabled
  | estop | noStep | unavailable | locked | conflict | stepInUse | poolFull | busy | stopActive
  deriving DecidableEq, Repr

/-- A reply: the KIND and TAG of its request, the result code, and the bytes after the code (R175). -/
structure PortReply where
  kind : Byte
  tag : Byte
  code : ResultCode
  data : List Byte
  deriving DecidableEq, Repr

/-- A complete console frame as received (R170). -/
structure ConsoleFrame where
  length : Byte
  kind : Byte
  tag : Byte
  body : List Byte
  crcHigh : Byte
  crcLow : Byte
  deriving DecidableEq, Repr

/-- The receiver of a port with what it has taken of the frame (R170). -/
inductive Receiver where
  | hunt
  | header (got : List Byte)
  | body (length kind tag : Byte) (got : List Byte)
  | check (length kind tag : Byte) (body : List Byte) (got : List Byte)
  deriving DecidableEq, Repr

/-- Why a plan failed, as PLAN_VOID reports it (R66). -/
inductive VoidReason where
  | interlock (pair : PairId)
  | tooLong
  | void (a : AxisId)
  deriving DecidableEq, Repr

/-- The part of the image in which a read-back first differs (R190). -/
inductive ImagePart where
  | header
  | axis (n : Nat)
  | pair (n : Nat)
  | crc
  deriving DecidableEq, Repr

/-- The outcome of an image load (R187, R188). -/
inductive LoadOutcome where
  | loaded (axes pairs : Nat)
  | blank
  | marker
  | format
  | crc
  | axis (n : Nat)
  | pair (n : Nat)
  deriving DecidableEq, Repr

/-- What an event reports: its kind with its subject and detail (Table 10-4 and the rules it names). -/
inductive EventBody where
  | estopSet (by_ : Option Console)
  | estopCleared (c : Console)
  | axisFault (a : AxisId) (cause : FaultCause) (owner : Option LaneId)
  | interlock (pair : PairId) (upper lower : AxisId) (gap : Int) (minimum : Nat) (writer : AxisId)
      (lanes : List LaneId)
  | laneState (l : LaneId) (before after : LaneState) (cause : HaltCause)
  | stepDone (l : LaneId) (step : StepRef) (resumed clipped : Bool)
  | seqEnd (l : LaneId) (base : Option StepRef) (broken : Bool)
  | goRefused (l : LaneId) (code : ResultCode) (axis : Option AxisId) (lane : Option LaneId)
  | planVoid (l : LaneId) (reason : VoidReason)
  | stationState (address : Nat) (a : AxisId) (before after : StationState) (count : Nat)
  | loadWarning (a : AxisId) (load : Nat) (aboveMaximum : Bool) (owner : Option LaneId)
  | controller (l : LaneId) (before after : Option Console)
  | targetClipped (a : AxisId) (l : LaneId) (asked target : Nat)
  | stopClipped (a : AxisId) (l : Option LaneId) (limit : Nat)
  | saveDone (c : Console)
  | saveFailed (part : ImagePart) (c : Console)
  | configResult (outcome : LoadOutcome)
  deriving DecidableEq, Repr

/-- An event record with its period stamp (R176). -/
structure EventRecord where
  body : EventBody
  stamp : Stamp
  deriving DecidableEq, Repr

/-- A port record (Table 10-1). ATTENTION is read from the event queue (R179). -/
structure Port where
  receiver : Receiver
  /-- complete frames not yet judged (the model's own) -/
  complete : List ConsoleFrame
  inProgress : Option Instr
  transmit : List PortReply
  /-- the last reply frame sent on CPnTX -/
  sent : List Byte
  events : List EventRecord
  filter : Nat
  pending1 : Bool
  pending2 : Bool
  pending3 : Bool
  overflow : Bool
  frameErrors : Nat
  deriving DecidableEq, Repr

/-- The port record after pin reset (R184, Table 10-5). -/
def Port.reset : Port where
  receiver := .hunt
  complete := []
  inProgress := none
  transmit := []
  sent := []
  events := []
  filter := 3
  pending1 := false
  pending2 := false
  pending3 := false
  overflow := false
  frameErrors := 0

/-! ### Image Loader (Chapter 11) -/

/-- Configuration states (R185). -/
inductive ConfigState where
  | loading | loaded | blank | error
  deriving DecidableEq, Repr

/-- A save in progress: the console that asked, and the image formed (R189). -/
structure SaveJob where
  console : Console
  image : List Byte
  deriving DecidableEq, Repr

/-- The Image Loader; the save-in-progress flag is set exactly while `save` is present (R185). -/
structure Loader where
  state : ConfigState
  save : Option SaveJob
  deriving DecidableEq, Repr

/-- The serial configuration memory: listed cells, addresses rising, an unlisted byte reading as erased (log entry
10). -/
abbrev Memory := List Host.Cell

/-! ### Messages between blocks (the model's own) -/

/-- A good reply handed to the Supervisor with the frame it answers (R136). -/
structure ReplyCheck where
  axis : AxisId
  reply : Reply
  setpoint : Nat
  mode : DriveMode
  deriving DecidableEq, Repr

/-- A good reply handed to the Motion Generator with the mode of the frame it answers (R102). -/
structure MarkNotice where
  axis : AxisId
  tracking : Bool
  mode : DriveMode
  sinceMoving : Bool
  deriving DecidableEq, Repr

/-- The Drive Link's notice to the Axis Table that a station reached ONLINE, with the feedback of the reply that
completed the joining, or left ONLINE (R166). -/
structure StationNotice where
  axis : AxisId
  online : Option Nat
  deriving DecidableEq, Repr

/-- What has been sent and not yet taken, oldest first. -/
structure Messages where
  faultRequests : List (AxisId × FaultCause)
  replyChecks : List ReplyCheck
  markNotices : List MarkNotice
  stationNotices : List StationNotice
  posted : List EventRecord
  deriving DecidableEq, Repr

/-! ### The part -/

/-- The state of the part. -/
structure State where
  /-- commands waiting, first in first out -/
  pending : List Instr
  period : Stamp
  latch : Bool
  lines : Table 8 LineState
  memory : Memory
  axes : Table 48 Axis
  lanes : Table 8 Lane
  cues : CueStore
  planner : Planner
  contexts : Table 8 (Option MotionContext)
  stops : Table 48 (Option StopRecord)
  pairs : Table 32 (Option ClashPair)
  stations : Table 48 (Option StationEntry)
  link : Link
  ports : Table 3 Port
  loader : Loader
  messages : Messages
  deriving DecidableEq, Repr

/-- The input lines after pin reset (R135): STOPN high, the others low; raw levels equal (log entry 11). -/
def LineState.resetLines : Table 8 LineState :=
  (Table.fill 8 ⟨false, false, false⟩).set 0 ⟨true, true, false⟩

/-- The machine right after pin reset, while the image load runs: R20, R39, R53, R82, R99, R135, R151, R168, R184,
R185. The serial memory is one that no save has written (log entry 10). -/
def State.reset : State where
  pending := []
  period := 0
  latch := true
  lines := LineState.resetLines
  memory := []
  axes := Table.fill 48 Axis.reset
  lanes := Table.fill 8 Lane.reset
  cues := CueStore.reset
  planner := ⟨[], none, []⟩
  contexts := Table.fill 8 none
  stops := Table.fill 48 none
  pairs := Table.fill 32 none
  stations := Table.fill 48 none
  link := ⟨none, none, []⟩
  ports := Table.fill 3 Port.reset
  loader := ⟨.loading, none⟩
  messages := ⟨[], [], [], [], []⟩

/-- Reasons a step can stop with a fault. No rule of the manual stops the part: a line set's fault is an axis state
(R10) and a bad request is answered by a result code (Table 10-3), so no command raises one. -/
inductive Fault where
  /-- Raised by nothing: it stands only so that the type has a value. Safe. -/
  | none
  deriving DecidableEq, Repr

/-- Reasons a step can be refused. -/
inductive Refusal where
  /-- Raised by exec for a command that has no meaning yet; every command has one. Safe. -/
  | notModelled (mnemonic : String)
  deriving DecidableEq, Repr

end Sys2Proof.Machine
end

