-- ==== Sys2Proof/Machine/Ops.lean ====
section
/-! DEFINITION. The named operations over the records and the serial memory: reading and changing a record, posting an
event, delivering a message, writing a setpoint with the gap check that follows it, claims and releases, faults, and
a lane's change of state. -/

namespace Sys2Proof.Machine

/-! ### The serial memory (R186, R197) -/

/-- What a byte of the serial memory that nothing has written reads as: an erased cell (log entry 10). -/
def erased : Byte := 0xFF

/-- The byte at an address of the serial memory. -/
def Memory.read (m : Memory) (addr : Nat) : Byte :=
  match m with
  | [] => erased
  | c :: rest => if c.1 = addr then c.2 else Memory.read rest addr

/-- The memory with a cell's byte listed in its place, or not listed where it is the erased byte. -/
def Memory.place (m : Memory) (addr : Nat) (b : Byte) : Memory :=
  match m with
  | [] => if b = erased then [] else [(addr, b)]
  | c :: rest =>
    if addr < c.1 then (if b = erased then c :: rest else (addr, b) :: c :: rest)
    else if addr = c.1 then (if b = erased then rest else (addr, b) :: rest)
    else c :: Memory.place rest addr b

/-- The memory after one byte is written; an address past the image is not the part's to write. -/
def Memory.write (m : Memory) (addr : Nat) (b : Byte) : Memory :=
  if addr < Config.imageSize then Memory.place m addr b else m

/-- The memory after a list of byte writes, in order. -/
def Memory.writeAll (m : Memory) (cells : List (Nat × Byte)) : Memory :=
  cells.foldl (fun m c => Memory.write m c.1 c.2) m

/-- The canonical form: addresses strictly rising and inside the image, no listed byte equal to the erased one. -/
def Memory.wf : Memory → Bool
  | [] => true
  | [c] => decide (c.1 < Config.imageSize) && decide (c.2 ≠ erased)
  | c :: d :: rest => decide (c.1 < d.1) && decide (c.2 ≠ erased) && Memory.wf (d :: rest)

/-- The bytes of the image as the memory holds it. -/
def Memory.image (m : Memory) : List Byte :=
  (List.range Config.imageSize).map (Memory.read m)

/-! ### Records -/

/-- The place of an input line in the table of lines. -/
def lineIndex : Line → Fin 8
  | .stopn => 0
  | .enable c => ⟨1 + c.val, by omega⟩
  | .hold n => ⟨4 + n.val, by omega⟩

namespace State

def lane (s : State) (l : LaneId) : Lane := s.lanes.get l
def axis (s : State) (a : AxisId) : Axis := s.axes.get a
def port (s : State) (p : Console) : Port := s.ports.get p
def station (s : State) (a : AxisId) : Option StationEntry := s.stations.get a
def context (s : State) (l : LaneId) : Option MotionContext := s.contexts.get l
def stop (s : State) (a : AxisId) : Option StopRecord := s.stops.get a

def updLane (s : State) (l : LaneId) (f : Lane → Lane) : State := { s with lanes := s.lanes.modify l f }
def updAxis (s : State) (a : AxisId) (f : Axis → Axis) : State := { s with axes := s.axes.modify a f }
def updPort (s : State) (p : Console) (f : Port → Port) : State := { s with ports := s.ports.modify p f }
def updMessages (s : State) (f : Messages → Messages) : State := { s with messages := f s.messages }
def setStation (s : State) (a : AxisId) (e : Option StationEntry) : State :=
  { s with stations := s.stations.set a e }
def setContext (s : State) (l : LaneId) (c : Option MotionContext) : State :=
  { s with contexts := s.contexts.set l c }
def setStop (s : State) (a : AxisId) (r : Option StopRecord) : State :=
  { s with stops := s.stops.set a r }

/-- The qualified level of a line; every rule that speaks of a line's level means it (R121). -/
def qualified (s : State) (line : Line) : Bool := (s.lines.get (lineIndex line)).qualified

/-- The ENABLE line of a console is qualified active (R122). -/
def enabled (s : State) (c : Console) : Bool := s.qualified (.enable c)

/-- The save-in-progress flag (R185). -/
def saving (s : State) : Bool := s.loader.save.isSome

/-- An axis record holds a configuration (R1). -/
def present (s : State) (a : AxisId) : Bool := (s.axis a).config.isSome

/-- The station of an axis is ONLINE. -/
def online (s : State) (a : AxisId) : Bool :=
  match s.station a with
  | some e => decide (e.state = .online)
  | none => false

/-- A block posts an event: it is stamped with the period count and waits to be offered to the ports (R176, R177). -/
def emit (s : State) (e : EventBody) : State :=
  s.updMessages (fun m => { m with posted := m.posted ++ [⟨e, s.period⟩] })

/-- A message is delivered to one lane. -/
def deliver (s : State) (l : LaneId) (m : LaneMessage) : State :=
  s.updLane l (fun ln => { ln with inbox := ln.inbox ++ [m] })

/-- A message is delivered to every lane (R123, R131, R133). -/
def deliverAll (s : State) (m : LaneMessage) : State :=
  { s with lanes := s.lanes.map (fun ln => { ln with inbox := ln.inbox ++ [m] }) }

end State

/-- The emergency latch is set: one event, and an emergency delivered to every lane; nothing when it was set already
(R123). -/
def setLatch (source : Option Console) (s : State) : State :=
  if s.latch then s else (({ s with latch := true } : State).emit (.estopSet source)).deliverAll .emergency

/-! ### Setpoints and gaps (R11, R12, R147 to R149) -/

/-- The reference height of an axis for a gap: the floor of its setpoint, else of its last feedback (R147). -/
def reference (ax : Axis) : Option Nat :=
  match ax.setpoint with
  | some v => some (v / Config.unit)
  | none => ax.feedback.map (fun v => v / Config.unit)

/-- The gap of a pair, absent when one of its axes has neither setpoint nor feedback (R147). -/
def pairGap (s : State) (pr : ClashPair) : Option Int :=
  match reference (s.axis pr.upper), reference (s.axis pr.lower) with
  | some u, some l => some ((u : Int) - (l : Int))
  | _, _ => none

/-- A defined pair is active while both its axes are present (R144). -/
def pairActive (s : State) (pr : ClashPair) : Bool :=
  s.present pr.upper && s.present pr.lower

/-- The pair has this axis and is active, so a write of the axis's setpoint computes its gap (R147). -/
def pairWatches (s : State) (a : AxisId) (pr : ClashPair) : Bool :=
  (decide (pr.upper = a) || decide (pr.lower = a)) && pairActive s pr

/-- A write by the Motion Generator trips the pair: the gap is below the minimum and below the last gap (R148). -/
def pairTrips (s : State) (a : AxisId) (pr : ClashPair) : Bool :=
  pairWatches s a pr &&
    match pairGap s pr, pr.lastGap with
    | some g, some last => decide (g < (pr.gap : Int)) && decide (g < last)
    | _, _ => false

/-- The lanes that own an axis of the pair, ascending (R148). -/
def pairOwners (s : State) (pr : ClashPair) : List LaneId :=
  (List.finRange 8).filter
    (fun l => decide ((s.axis pr.upper).owner = some l) || decide ((s.axis pr.lower).owner = some l))

/-- The lanes concerned: owners that are RUNNING or STOPPING (R149). -/
def pairConcerned (s : State) (pr : ClashPair) : List LaneId :=
  (pairOwners s pr).filter
    (fun l => decide ((s.lane l).state = .running) || decide ((s.lane l).state = .stopping))

/-- One trip: the INTERLOCK event when a lane concerned is RUNNING, and a trip sent to each owner (R148, R149). -/
def sendTrip (writer : AxisId) (n : PairId) (s : State) : State :=
  match s.pairs.get n with
  | none => s
  | some pr =>
    let concerned := pairConcerned s pr
    let s1 :=
      if concerned.any (fun l => decide ((s.lane l).state = .running)) then
        s.emit (.interlock n pr.upper pr.lower ((pairGap s pr).getD 0) pr.gap writer concerned)
      else s
    (pairOwners s pr).foldl (fun t l => t.deliver l (.trip n)) s1

/-- The last gaps after a write of an axis's setpoint (R147). -/
def regap (a : AxisId) (s : State) : State :=
  { s with pairs := s.pairs.map (fun po => po.map (fun pr =>
      if pairWatches s a pr then { pr with lastGap := pairGap s pr } else pr)) }

/-- What the Supervisor does at a write of an axis's setpoint: the trip test for a write by the Motion Generator, in
ascending pair number, and in every case the new last gap (R147). -/
def noteWrite (byMotion : Bool) (a : AxisId) (s : State) : State :=
  let trips := if byMotion then
      s.pairs.indices (fun po => match po with | some pr => pairTrips s a pr | none => false)
    else []
  regap a (trips.foldl (fun t n => sendTrip a n t) s)

/-- The Motion Generator writes a setpoint: the value replaced becomes the previous setpoint (R11). -/
def moveSetpoint (a : AxisId) (v : Nat) (s : State) : State :=
  noteWrite true a (s.updAxis a (fun ax => { ax with previous := ax.setpoint, setpoint := some v }))

/-- A feedback clamped into the soft limits of a configuration (R12). -/
def seedValue (cfg : AxisConfig) (f : Nat) : Nat :=
  if f < cfg.low * Config.unit then cfg.low * Config.unit
  else if cfg.high * Config.unit < f then cfg.high * Config.unit
  else f

/-- Seeding: setpoint and previous setpoint from a feedback value, clamped (R12). -/
def seed (a : AxisId) (f : Nat) (s : State) : State :=
  match (s.axis a).config with
  | none => s
  | some cfg =>
    noteWrite false a
      (s.updAxis a (fun ax => { ax with setpoint := some (seedValue cfg f), previous := some (seedValue cfg f) }))

/-- The setpoint and previous setpoint become absent (R11). -/
def dropSetpoint (a : AxisId) (s : State) : State :=
  noteWrite false a (s.updAxis a (fun ax => { ax with setpoint := none, previous := none }))

/-! ### Axis states -/

/-- The axis's state alone changes; an arrival request outstanding for a MOVING axis ends with that state. -/
def setAxisState (a : AxisId) (st : AxisState) (s : State) : State :=
  s.updAxis a (fun ax => { ax with state := st, arriving := false })

/-- MOVING or STOPPING. -/
def AxisState.travelling : AxisState → Bool
  | .moving => true
  | .stopping => true
  | _ => false

/-- A fault request is applied by the axis state (R10): REST, MOVING and STOPPING become FAULTED with an AXIS_FAULT
event and a notice to the owning lane; any other state takes nothing from it. -/
def applyFault (a : AxisId) (cause : FaultCause) (s : State) : State :=
  match (s.axis a).state with
  | .rest | .moving | .stopping =>
    let s1 := ((setAxisState a (.faulted cause) s).setStop a none).emit (.axisFault a cause (s.axis a).owner)
    match (s.axis a).owner with
    | some l => s1.deliver l (.fault a)
    | none => s1
  | _ => s

/-! ### Claims and releases (R34 to R37) -/

/-- A refusal of a request: the result code and the axis and lane it carries (R175). -/
structure Refused where
  code : ResultCode
  axis : Option AxisId
  lane : Option LaneId
  deriving DecidableEq, Repr

/-- A refusal that carries its code alone. -/
def Refused.plain (code : ResultCode) : Refused := ⟨code, none, none⟩

/-- The claim tests for one axis (Table 2-3); an axis the lane owns passes. -/
def claimTest (s : State) (l : LaneId) (a : AxisId) : Option Refused :=
  let ax := s.axis a
  if ax.owner = some l then none
  else
    match ax.state with
    | .unconfigured | .offline | .faulted _ => some ⟨.unavailable, some a, none⟩
    | _ =>
      if ax.lock then some ⟨.locked, some a, none⟩
      else
        match ax.owner with
        | some m => some ⟨.conflict, some a, some m⟩
        | none => none

/-- The claim is granted: the lane owns exactly the named axes, in their order, as one change at both sides (R22, R35,
log entry 21). -/
def grant (l : LaneId) (as : List AxisId) (s : State) : State :=
  { s with
    axes := s.axes.mapIdx (fun a ax =>
      if a ∈ as then { ax with owner := some l }
      else if ax.owner = some l then { ax with owner := none } else ax)
    lanes := s.lanes.modify l (fun ln => { ln with claimSet := as }) }

/-- A claim, granted whole or refused by the first failing test of the first failing axis (R35). -/
def claim (l : LaneId) (as : List AxisId) (s : State) : Except Refused State :=
  match as.findSome? (claimTest s l) with
  | some r => .error r
  | none => .ok (grant l as s)

/-- A release: every axis of the lane becomes unowned and its claim set empty, as one change (R37). -/
def release (l : LaneId) (s : State) : State :=
  { s with
    axes := s.axes.map (fun ax => if ax.owner = some l then { ax with owner := none } else ax)
    lanes := s.lanes.modify l (fun ln => { ln with claimSet := [] }) }

/-! ### Lanes -/

/-- A lane's change of state, with its LANE_STATE event; a lane that stays as it is posts nothing (R56). -/
def changeState (l : LaneId) (st : LaneState) (s : State) : State :=
  let before := (s.lane l).state
  if before = st then s
  else (s.updLane l (fun ln => { ln with state := st })).emit (.laneState l before st (s.lane l).haltCause)

/-- The step a lane's current step names, as the store holds it now (R50). -/
def currentStep (s : State) (l : LaneId) : Option Step :=
  match (s.lane l).current with
  | none => none
  | some (.numbered n) => s.cues.slots.get n
  | some .direct => s.cues.privates.get l

/-- The context of a lane is discarded; its profile time is kept with a plan record the lane keeps (R99, R120). -/
def dropContext (l : LaneId) (s : State) : State :=
  let time := match s.context l with | some c => c.profileTime | none => 0
  (s.updLane l (fun ln => { ln with plan := ln.plan.map (fun p => { p with frozen := time }) })).setContext l none

/-- Arrival requests outstanding for a lane's members are taken: they were sent before what the lane takes now (R113,
log entry 15). -/
def settleArrivals (l : LaneId) (s : State) : State :=
  { s with axes := s.axes.mapIdx (fun a ax =>
      if a ∈ (s.lane l).claimSet ∧ ax.state = .moving ∧ ax.arriving = true then
        { ax with state := .rest, arriving := false } else ax) }

/-- The lane's members that are MOVING return to REST at their present setpoints (R7, R69). -/
def restMembers (l : LaneId) (s : State) : State :=
  { s with axes := s.axes.mapIdx (fun a ax =>
      if a ∈ (s.lane l).claimSet ∧ ax.state = .moving then { ax with state := .rest, arriving := false } else ax) }

/-- The lane's members that are MOVING or STOPPING become REST at their present setpoints, and their stop trajectories
are abandoned (R9, R72). -/
def brakeMembers (l : LaneId) (s : State) : State :=
  let members := (s.lane l).claimSet
  { s with
    axes := s.axes.mapIdx (fun a ax =>
      if a ∈ members ∧ ax.state.travelling = true then { ax with state := .rest, arriving := false } else ax)
    stops := s.stops.mapIdx (fun a r => if a ∈ members ∧ (s.axis a).state.travelling = true then none else r) }

/-- No member of the lane is MOVING or STOPPING (R71). -/
def membersAtRest (s : State) (l : LaneId) : Bool :=
  (s.lane l).claimSet.all (fun a => !(s.axis a).state.travelling)

end Sys2Proof.Machine
end

