-- ==== Sys2Proof/Machine/Flags.lean ====
section
/-! DEFINITION. Flags and counters: saturating counters and their SATURATED flag, the lock flags of LOCK SET, the event
classes, and a port's queue, pending-class and overflow flags as an event is offered to it. -/

namespace Sys2Proof.Machine

/-- A saturating 16-bit counter increased by 1 (R159, R163, R170). -/
def bump (n : Nat) : Nat :=
  if n < Config.counterMax then n + 1 else Config.counterMax

/-- The SATURATED flag of a station counter: set while the counter stands at 65535 (R159). -/
def saturated (n : Nat) : Bool :=
  decide (n = Config.counterMax)

/-- The lock flags after LOCK SET: masked axes take their value member, the others keep their flag (R15). -/
def lockAxes (value mask : BitVec 48) (s : State) : State :=
  { s with axes := s.axes.mapIdx (fun a ax =>
      if mask.getLsbD a.val then { ax with lock := value.getLsbD a.val } else ax) }

/-- Every lock flag set (R21). -/
def lockAll (s : State) : State :=
  { s with axes := s.axes.map (fun ax => { ax with lock := true }) }

/-- The class of an event (Table 10-4): 0 SAFETY, 1 LANE, 2 LINK, 3 INFO. -/
def EventBody.cls : EventBody → Nat
  | .estopSet _ | .estopCleared _ | .axisFault _ _ _ | .interlock _ _ _ _ _ _ _ => 0
  | .laneState _ _ _ _ | .stepDone _ _ _ _ | .seqEnd _ _ _ | .goRefused _ _ _ _ | .planVoid _ _ => 1
  | .stationState _ _ _ _ _ => 2
  | .loadWarning _ _ _ _ | .controller _ _ _ | .targetClipped _ _ _ _ | .stopClipped _ _ _ | .saveDone _
  | .saveFailed _ _ | .configResult _ => 3

/-- The pending-class flag of a class is set; class 0 has none (R169). -/
def setPending (k : Nat) (pt : Port) : Port :=
  match k with
  | 1 => { pt with pending1 := true }
  | 2 => { pt with pending2 := true }
  | 3 => { pt with pending3 := true }
  | _ => pt

/-- A port takes an offered event: queued, lost with the overflow flag set, or held back with its class's pending flag
set (R178). -/
def offerPort (e : EventRecord) (pt : Port) : Port :=
  if e.body.cls ≤ pt.filter then
    if pt.events.length < Config.eventQueueSize then { pt with events := pt.events ++ [e] }
    else { pt with overflow := true }
  else setPending e.body.cls pt

/-- An event is offered to all three ports (R177). -/
def offer (e : EventRecord) (s : State) : State :=
  { s with ports := s.ports.map (offerPort e) }

/-- The oldest posted event is offered. -/
def offerOldest (s : State) : State :=
  match s.messages.posted with
  | [] => s
  | e :: rest => offer e (s.updMessages (fun m => { m with posted := rest }))

/-- Every posted event is offered, oldest first. -/
def offerAll (s : State) : State :=
  s.messages.posted.foldl (fun t e => offer e t) (s.updMessages (fun m => { m with posted := [] }))

/-- The ATTENTION output of a port: high while its event queue holds an event (R179). -/
def Port.attention (pt : Port) : Bool := !pt.events.isEmpty

/-- A frame is discarded at a port: counted, and answered with nothing (R170, R171, R174). -/
def countFrameError (p : Console) (s : State) : State :=
  s.updPort p (fun pt => { pt with frameErrors := bump pt.frameErrors })

end Sys2Proof.Machine
end

