-- ==== Sys2Proof/Machine/Layout.lean ====
section
/-! DEFINITION. The byte layouts of Chapter 12: the CRC-16, the codes of enumerated fields, event records, SETPOINT and
STATUS frames, reply frames, and the records of the rig image. A field wider than a byte has its most significant byte
first. -/

namespace Sys2Proof.Machine

/-! ### Fields -/

/-- The low byte of a number. -/
def byteOf (n : Nat) : Byte := BitVec.ofNat 8 n

/-- Two bytes, most significant first. -/
def be16 (n : Nat) : List Byte := [byteOf (n / 256), byteOf n]

/-- Four bytes, most significant first. -/
def be32 (n : Nat) : List Byte := [byteOf (n / 16777216), byteOf (n / 65536), byteOf (n / 256), byteOf n]

/-- The number whose bytes are given, most significant first. -/
def ofBytes (bs : List Byte) : Nat := bs.foldl (fun n b => n * 256 + b.toNat) 0

/-- A flag as one byte (Table 12-3a). -/
def flagByte (b : Bool) : Byte := if b then 1 else 0

/-- A signed 2-byte number (R194). The gap of an INTERLOCK event may lie below -32768, which two bytes cannot hold: that it is
then sent modulo 65536 is the model's choice (log entry 34). -/
def signed16 (g : Int) : List Byte := be16 (g % 65536).toNat

/-- An optional item: one byte for its presence, and its bytes, zero when absent (R193). -/
def optional (width : Nat) (item : Option (List Byte)) : List Byte :=
  match item with
  | some bs => 1 :: bs
  | none => 0 :: List.replicate width 0

/-! ### CRC-16 (R192) -/

/-- One bit step of the generator x^16 + x^12 + x^5 + 1. -/
def crcBit (r : BitVec 16) : BitVec 16 :=
  if r.msb then (r <<< 1) ^^^ 0x1021#16 else r <<< 1

/-- One byte, from its most significant bit. -/
def crcByte (r : BitVec 16) (b : Byte) : BitVec 16 :=
  let x := r ^^^ (b.zeroExtend 16 <<< 8)
  crcBit (crcBit (crcBit (crcBit (crcBit (crcBit (crcBit (crcBit x)))))))

/-- The CRC-16 over bytes, from 0xFFFF. -/
def crc16 (bs : List Byte) : BitVec 16 := bs.foldl crcByte 0xFFFF#16

/-- The CRC-16 as it is sent or stored, high byte first. -/
def crcBytes (bs : List Byte) : List Byte := be16 (crc16 bs).toNat

/-! ### Codes (Tables 12-3 and 12-3a) -/

def ResultCode.code : ResultCode → Byte
  | .ok => 0 | .badLength => 1 | .unknown => 2 | .badArg => 3 | .portBusy => 4 | .starting => 5
  | .notController => 6 | .owned => 7 | .wrongState => 8 | .notEnabled => 9 | .estop => 10 | .noStep => 11
  | .unavailable => 12 | .locked => 13 | .conflict => 14 | .stepInUse => 15 | .poolFull => 16 | .busy => 17
  | .stopActive => 18

def LaneState.code : LaneState → Byte
  | .idle => 0 | .ready => 1 | .planning => 2 | .releasing => 3 | .running => 4 | .stopping => 5 | .held => 6
  | .follow => 7

def AxisState.code : AxisState → Byte
  | .unconfigured => 0 | .offline => 1 | .rest => 2 | .moving => 3 | .stopping => 4 | .faulted _ => 5

def StationState.code : StationState → Byte
  | .offline => 0 | .joining => 1 | .online => 2 | .lost => 3

def faultCode : FaultCause → Byte
  | .following => 1 | .loadHigh => 2 | .loadLow => 3 | .linkLost => 4 | .driveFault => 5 | .lostTracking => 6
  | .brakeTimeout => 7

def DriveMode.code : DriveMode → Byte
  | .follow => 1 | .hold => 2 | .brake => 3 | .identify => 4

def ConfigState.code : ConfigState → Byte
  | .loading => 0 | .loaded => 1 | .blank => 2 | .error => 3

/-- Halt cause, two bytes. -/
def HaltCause.bytes : HaltCause → List Byte
  | .none => [0, 0]
  | .halt => [1, 0]
  | .enable => [2, 0]
  | .estop => [3, 0]
  | .fault a => [4, byteOf a.val]
  | .interlock n => [5, byteOf n.val]

/-- Console or controller, 0xFF for none. -/
def consoleByte : Option Console → Byte
  | some c => byteOf c.val
  | none => 0xFF

/-- Lane or owner lane, 0xFF for none. -/
def laneByte : Option LaneId → Byte
  | some l => byteOf l.val
  | none => 0xFF

/-- Lanes as one byte, lane n at bit n (R193, R194). -/
def laneBits (ls : List LaneId) : Byte :=
  byteOf ((List.finRange 8).foldl (fun n l => if l ∈ ls then n + 2 ^ l.val else n) 0)

/-- Step number, two bytes: 0xFFFE the private direct step. -/
def StepRef.bytes : StepRef → List Byte
  | .numbered n => be16 n.val
  | .direct => [0xFF, 0xFE]

/-- Next step, two bytes: 0xFFFF for END. -/
def nextBytes : Option StepNo → List Byte
  | some n => be16 n.val
  | none => [0xFF, 0xFF]

/-- Follow mode: kind, follow A, follow B, as PUT STEP carries them; that the bytes a kind does not use are sent as 0 is the
model's choice (log entry 12). -/
def FollowMode.bytes : FollowMode → List Byte
  | .manual => [0, 0, 0, 0]
  | .timed w => 1 :: be16 w ++ [0]
  | .linked l n => 2 :: be16 l.val ++ [byteOf n]

/-- Follow kind of a lane: the kind, the linked lane as follow A; the parameters it does not hold are 0 (log entry 12). -/
def FollowKind.bytes : FollowKind → List Byte
  | .timed => [1, 0, 0, 0]
  | .linked l => 2 :: be16 l.val ++ [0]

def holdSourceByte : Option HoldLine → Byte
  | none => 0
  | some n => byteOf (n.val + 1)

def VoidReason.bytes : VoidReason → List Byte
  | .interlock n => [0, byteOf n.val]
  | .tooLong => [1, 0]
  | .void a => [2, byteOf a.val]

def ImagePart.bytes : ImagePart → List Byte
  | .header => [0, 0]
  | .axis n => [1, byteOf n]
  | .pair n => [2, byteOf n]
  | .crc => [3, 0]

def LoadOutcome.bytes : LoadOutcome → List Byte
  | .loaded axes pairs => [1, byteOf axes, byteOf pairs]
  | .blank => [2]
  | .marker => [3, 1, 0]
  | .format => [3, 2, 0]
  | .crc => [3, 3, 0]
  | .axis n => [3, 4, byteOf n]
  | .pair n => [3, 5, byteOf n]

/-- The drive flags byte of Table 12-6. -/
def Reply.flags (r : Reply) : Byte :=
  byteOf ((if r.tracking then 1 else 0) + (if r.braked then 2 else 0) + (if r.fault then 4 else 0))

/-! ### Event records (R194) -/

/-- The kind value of an event. -/
def EventBody.kind : EventBody → Byte
  | .estopSet _ => 1 | .estopCleared _ => 2 | .axisFault _ _ _ => 3 | .interlock _ _ _ _ _ _ _ => 4
  | .laneState _ _ _ _ => 16 | .stepDone _ _ _ _ => 17 | .seqEnd _ _ _ => 18 | .goRefused _ _ _ _ => 19
  | .planVoid _ _ => 20 | .stationState _ _ _ _ _ => 32 | .loadWarning _ _ _ _ => 48 | .controller _ _ _ => 49
  | .targetClipped _ _ _ _ => 50 | .stopClipped _ _ _ => 50 | .saveDone _ => 51 | .saveFailed _ _ => 52
  | .configResult _ => 53

/-- Subject type and subject number. -/
def EventBody.subject : EventBody → List Byte
  | .estopSet _ | .estopCleared _ | .saveDone _ | .saveFailed _ _ | .configResult _ => [0, 0]
  | .laneState l _ _ _ | .stepDone l _ _ _ | .seqEnd l _ _ | .goRefused l _ _ _ | .planVoid l _
  | .controller l _ _ => [1, byteOf l.val]
  | .axisFault a _ _ | .loadWarning a _ _ _ | .targetClipped a _ _ _ | .stopClipped a _ _ => [2, byteOf a.val]
  | .stationState address _ _ _ _ => [3, byteOf address]
  | .interlock n _ _ _ _ _ _ => [4, byteOf n.val]

/-- The detail, in the order its rule lists it. -/
def EventBody.detail : EventBody → List Byte
  | .estopSet none => [0, 0xFF]
  | .estopSet (some c) => [1, byteOf c.val]
  | .estopCleared c => [byteOf c.val]
  | .axisFault _ cause owner => [faultCode cause, laneByte owner]
  | .interlock _ u l gap g writer lanes =>
    [byteOf u.val, byteOf l.val] ++ signed16 gap ++ be16 g ++ [byteOf writer.val, laneBits lanes]
  | .laneState _ before after cause => [before.code, after.code] ++ cause.bytes
  | .stepDone _ step resumed clipped => step.bytes ++ [flagByte resumed, flagByte clipped]
  | .seqEnd _ (some base) broken => base.bytes ++ [flagByte broken]
  | .seqEnd _ none broken => [0, 0, flagByte broken]
  | .goRefused _ code axis lane =>
    [code.code, (match axis with | some a => byteOf a.val | none => 0), laneByte lane]
  | .planVoid _ reason => reason.bytes
  | .stationState _ a before after count =>
    [byteOf a.val, before.code, after.code] ++
      (match after with | .online | .lost => be16 count | _ => [])
  | .loadWarning _ load above owner => be16 load ++ [flagByte above, laneByte owner]
  | .controller _ before after => [consoleByte before, consoleByte after]
  | .targetClipped _ l asked target => byteOf l.val :: be16 asked ++ be16 target
  | .stopClipped _ l limit => laneByte l :: be16 limit ++ [1]
  | .saveDone c => [byteOf c.val]
  | .saveFailed part c => part.bytes ++ [byteOf c.val]
  | .configResult outcome => outcome.bytes

/-- The 16 bytes of an event record (Table 12-4). -/
def EventRecord.bytes (e : EventRecord) : List Byte :=
  [e.body.kind, byteOf e.body.cls] ++ e.body.subject ++ be32 e.stamp.toNat ++
    (e.body.detail ++ List.replicate 8 0).take 8

/-! ### Console frames (R193) -/

/-- The bytes of a reply frame (Table 12-1), its body opening with the result code. -/
def PortReply.frame (r : PortReply) : List Byte :=
  let covered := byteOf (1 + r.data.length) :: r.kind :: r.tag :: r.code.code :: r.data
  0xC5 :: covered ++ crcBytes covered

/-- A received frame's CRC checks (R171). -/
def ConsoleFrame.checks (f : ConsoleFrame) : Bool :=
  decide (crcBytes (f.length :: f.kind :: f.tag :: f.body) = [f.crcHigh, f.crcLow])

/-! ### Drive frames (R195, R196) -/

/-- A SETPOINT frame (Table 12-5). -/
def setpointFrame (address : Nat) (mode : DriveMode) (sequence : BitVec 4) (setpoint : Nat) : List Byte :=
  let covered := [0xA1#8, byteOf address, mode.code, byteOf sequence.toNat] ++ be32 setpoint
  [0x55#8, 0xD3#8] ++ covered ++ crcBytes covered

/-- What a STATUS frame says: the sender's address, the sequence echo and the report. -/
structure StatusFrame where
  address : Nat
  echo : Nat
  reply : Reply
  deriving DecidableEq, Repr

/-- A whole and correct STATUS frame (Table 12-6), or none for a reply that is short, has another preamble or type, or
fails its CRC (R196). Flag bits 3 to 7 are not read. -/
def readStatus (bytes : List Byte) : Option StatusFrame :=
  match bytes with
  | [p0, p1, ty, addr, flags, echo, f3, f2, f1, f0, w1, w0, c1, c0] =>
    if p0 = 0x55 ∧ p1 = 0xD3 ∧ ty = 0xA2 ∧
        crcBytes [ty, addr, flags, echo, f3, f2, f1, f0, w1, w0] = [c1, c0] then
      some ⟨addr.toNat, echo.toNat,
        ⟨flags.getLsbD 0, flags.getLsbD 1, flags.getLsbD 2, ofBytes [f3, f2, f1, f0], ofBytes [w1, w0]⟩⟩
    else none
  | _ => none

/-! ### Rig image (R186, R197) -/

/-- An axis configuration record, 16 bytes (Table 12-7); all zero when the axis is not present. -/
def axisBytes (cfg : Option AxisConfig) : List Byte :=
  match cfg with
  | none => List.replicate 16 0
  | some c =>
    [1, byteOf c.station] ++ be16 c.low ++ be16 c.high ++ be16 c.vmax ++ be16 c.rampFloor ++ be16 c.followLimit ++
      be16 c.loadMin ++ be16 c.loadMax

/-- A pair record, 5 bytes (Table 12-8); all zero when the slot is undefined. -/
def pairBytes (po : Option ClashPair) : List Byte :=
  match po with
  | none => List.replicate 5 0
  | some pr => [1, byteOf pr.upper.val, byteOf pr.lower.val] ++ be16 pr.gap

/-- The image formed from the configuration held in the part (R186, R189). -/
def formImage (s : State) : List Byte :=
  let covered := [0x4C#8, 0x43#8, 1, 48, 32] ++ (s.axes.cells.map (fun ax => axisBytes ax.config)).flatten ++
    (s.pairs.cells.map pairBytes).flatten
  covered ++ crcBytes covered

end Sys2Proof.Machine
end

