-- ==== Sys2Proof/Machine/Operands.lean ====
section
/-! DEFINITION. The operand forms: how a console frame's KIND and body spell a request (Tables 12-2, 12-2a, 12-7, 12-8),
and how the numbers a request carries name lanes, axes, pairs and steps. -/

namespace Sys2Proof.Machine

/-- Two bytes as a field, most significant first. -/
def half (hi lo : Byte) : Half := hi ++ lo

/-- Lane, axis, pair and step numbers, none when out of range. -/
def laneOf (b : Byte) : Option LaneId := if h : b.toNat < 8 then some ⟨b.toNat, h⟩ else none
def axisOf (b : Byte) : Option AxisId := if h : b.toNat < 48 then some ⟨b.toNat, h⟩ else none
def pairOf (b : Byte) : Option PairId := if h : b.toNat < 32 then some ⟨b.toNat, h⟩ else none
def stepOf (n : Half) : Option StepNo := if h : n.toNat < 512 then some ⟨n.toNat, h⟩ else none

/-- Exactly `count` move entries, each as long as its presence byte says (Table 12-2a); none when the body ends inside an
entry or goes on past the last. -/
def parseMoves (count : Nat) (body : List Byte) : Option (List RawMove) :=
  match count, body with
  | 0, [] => some []
  | n + 1, presence :: axis :: t1 :: t0 :: rest =>
    match presence.getLsbD 0, presence.getLsbD 1, rest with
    | false, false, rest => (parseMoves n rest).map (⟨axis, half t1 t0, none, none⟩ :: ·)
    | true, false, cap :: rest => (parseMoves n rest).map (⟨axis, half t1 t0, some cap, none⟩ :: ·)
    | false, true, d1 :: d0 :: rest => (parseMoves n rest).map (⟨axis, half t1 t0, none, some (half d1 d0)⟩ :: ·)
    | true, true, cap :: d1 :: d0 :: rest =>
      (parseMoves n rest).map (⟨axis, half t1 t0, some cap, some (half d1 d0)⟩ :: ·)
    | _, _, _ => none
  | _, _ => none

/-- Six bytes as a 48-member set: axis n in byte n / 8 at bit n mod 8 (Table 12-2). -/
def axisSet (b0 b1 b2 b3 b4 b5 : Byte) : BitVec 48 := b5 ++ b4 ++ b3 ++ b2 ++ b1 ++ b0

/-- The bytes of a 48-member set, as LOCK SET lays it out. -/
def axisSetBytes (v : BitVec 48) : List Byte :=
  (List.range 6).map (fun i => v.extractLsb' (8 * i) 8)

/-- What a well-formed frame spells: no request, a request with a body of the wrong length, or a request (R172). -/
inductive Parsed where
  | unknown
  | badLength
  | request (i : Instr)
  deriving DecidableEq, Repr

/-- A request whose body has the one length its KIND requires. -/
def Parsed.of (o : Option Instr) : Parsed :=
  match o with
  | some i => .request i
  | none => .badLength

/-- PUT STEP's body. -/
def parsePutStep (p : Console) (tag : Byte) (body : List Byte) : Option Instr :=
  match body with
  | s1 :: s0 :: l1 :: l0 :: r1 :: r0 :: t1 :: t0 :: fk :: a1 :: a0 :: fb :: n1 :: n0 :: count :: rest =>
    (parseMoves count.toNat rest).map (fun moves =>
      .putStep p tag (half s1 s0) ⟨half l1 l0, half r1 r0, half t1 t0, fk, half a1 a0, fb, half n1 n0, moves⟩)
  | _ => none

/-- DIRECT's body. -/
def parseDirect (p : Console) (tag : Byte) (body : List Byte) : Option Instr :=
  match body with
  | lane :: r1 :: r0 :: t1 :: t0 :: count :: rest =>
    (parseMoves count.toNat rest).map (fun moves => .direct p tag lane (half r1 r0) (half t1 t0) moves)
  | _ => none

/-- PUT AXIS's body; present = 0 is the removal, whose other fields are not read (R17). -/
def parsePutAxis (p : Console) (tag : Byte) (body : List Byte) : Option Instr :=
  match body with
  | [axis, present, station, l1, l0, h1, h0, v1, v0, r1, r0, f1, f0, m1, m0, x1, x0] =>
    some (if present = 0 then .putAxisRemove p tag axis
      else .putAxis p tag axis
        ⟨present, station, half l1 l0, half h1 h0, half v1 v0, half r1 r0, half f1 f0, half m1 m0, half x1 x0⟩)
  | _ => none

/-- LOCK SET's body. -/
def parseLockSet (p : Console) (tag : Byte) (body : List Byte) : Option Instr :=
  match body with
  | [v0, v1, v2, v3, v4, v5, m0, m1, m2, m3, m4, m5] =>
    some (.lockSet p tag (axisSet v0 v1 v2 v3 v4 v5) (axisSet m0 m1 m2 m3 m4 m5))
  | _ => none

/-- A body of one byte. -/
def parse1 (body : List Byte) (f : Byte → Instr) : Option Instr :=
  match body with
  | [a] => some (f a)
  | _ => none

/-- A body of two bytes. -/
def parse2 (body : List Byte) (f : Byte → Byte → Instr) : Option Instr :=
  match body with
  | [a, b] => some (f a b)
  | _ => none

/-- A body of a byte and a 2-byte field. -/
def parse12 (body : List Byte) (f : Byte → Half → Instr) : Option Instr :=
  match body with
  | [a, b1, b0] => some (f a (half b1 b0))
  | _ => none

/-- An empty body. -/
def parse0 (body : List Byte) (i : Instr) : Option Instr :=
  match body with
  | [] => some i
  | _ => none

/-- The request a KIND and body spell (Table 12-2). -/
def parseRequest (p : Console) (kind tag : Byte) (body : List Byte) : Parsed :=
  match kind.toNat with
  | 0x10 => .of (parse1 body (.take p tag))
  | 0x11 => .of (parse1 body (.yield p tag))
  | 0x12 => .of (parse12 body (.load p tag))
  | 0x13 => .of (parse1 body (.go p tag))
  | 0x14 => .of (parse1 body (.halt p tag))
  | 0x15 => .of (parse1 body (.clearLane p tag))
  | 0x16 => .of (parse12 body (.setRate p tag))
  | 0x17 => .of (parse2 body (.setRepeat p tag))
  | 0x18 => .of (parse2 body (.setHoldLine p tag))
  | 0x19 => .of (parseDirect p tag body)
  | 0x1A => .of (parse1 body (.getLane p tag))
  | 0x20 => .of (parsePutStep p tag body)
  | 0x21 => .of (match body with | [a, b] => some (.dropStep p tag (half a b)) | _ => none)
  | 0x22 => .of (parse12 body (.getStep p tag))
  | 0x30 => .of (parsePutAxis p tag body)
  | 0x31 => .of (parse1 body (.getAxis p tag))
  | 0x32 => .of (parseLockSet p tag body)
  | 0x33 => .of (parse1 body (.clearFault p tag))
  | 0x34 => .of (match body with
      | [n, u, l, g1, g0] => some (.putPair p tag n u l (half g1 g0))
      | _ => none)
  | 0x35 => .of (parse1 body (.dropPair p tag))
  | 0x40 => .of (parse2 body (.getStation p tag))
  | 0x50 => .of (parse0 body (.poll p tag))
  | 0x51 => .of (parse0 body (.fetch p tag))
  | 0x52 => .of (parse1 body (.setFilter p tag))
  | 0x53 => .of (parse0 body (.eStop p tag))
  | 0x54 => .of (parse0 body (.clearEStop p tag))
  | 0x55 => .of (parse0 body (.masterClear p tag))
  | 0x56 => .of (parse0 body (.saveImage p tag))
  | _ => .unknown

end Sys2Proof.Machine
end

