-- ==== Sys2Proof/Machine/Requests.lean ====
section
/-! DEFINITION. How a port admits a frame (R172), how an owning block takes a dispatched request and its reply is formed
(R173 to R175), and the tests every lane request meets first (R24). -/

namespace Sys2Proof.Machine

/-- What an owning block answers: the result code and the data after it (R175). -/
structure Answer where
  code : ResultCode
  data : List Byte
  deriving DecidableEq, Repr

/-- Accepted, with the data the request's rule gives. -/
def Answer.ok (data : List Byte) : Answer := ⟨.ok, data⟩

/-- Refused, the code alone. -/
def Answer.refuse (code : ResultCode) : Answer := ⟨code, []⟩

/-- Refused, with the axis and lane the code carries. -/
def Refused.answer (r : Refused) : Answer :=
  ⟨r.code, (match r.axis with | some a => [byteOf a.val] | none => []) ++
    (match r.lane with | some l => [byteOf l.val] | none => [])⟩

/-- A reply joins the tail of a port's transmit queue. -/
def queueReply (p : Console) (r : PortReply) (s : State) : State :=
  s.updPort p (fun pt => { pt with transmit := pt.transmit ++ [r] })

/-- The events that the change posted are offered before the reply is formed (R173): with every event posted before
them, in order (R177). A change that posts nothing offers nothing. -/
def offerNew (before : Nat) (s : State) : State :=
  if s.messages.posted.length = before then s else offerAll s

/-- The owning block takes a request: its change, the events it posts, then the reply; the port's request in progress
becomes absent (R173). -/
def finish (p : Console) (tag kind : Byte) (act : State → State × Answer) (s : State) : State :=
  let r := act s
  let s1 := offerNew s.messages.posted.length r.1
  queueReply p ⟨kind, tag, r.2.code, r.2.data⟩ (s1.updPort p (fun pt => { pt with inProgress := none }))

/-- What admission does with a well-formed frame (R172). -/
inductive Admission where
  | overrun
  | answer (code : ResultCode)
  | dispatch (i : Instr)
  deriving DecidableEq, Repr

/-- The checks of R172 in order. -/
def admissionOf (s : State) (p : Console) (parsed : Parsed) : Admission :=
  if Config.overrunDepth ≤ (s.port p).transmit.length then .overrun
  else if s.loader.state = .loading then .answer .starting
  else if (s.port p).inProgress.isSome then .answer .portBusy
  else
    match parsed with
    | .unknown => .answer .unknown
    | .badLength => .answer .badLength
    | .request i => .dispatch i

/-- A request command. When the port's request in progress is this very request, the owning block takes it. Otherwise
the command stands for the request's well-formed frame arriving at the port: it is admitted by R172 and, when
dispatched, taken at once (log entry 3). -/
def serve (p : Console) (tag kind : Byte) (self : Instr) (act : State → State × Answer) (s : State) : State :=
  if (s.port p).inProgress = some self then finish p tag kind act s
  else
    match admissionOf s p (.request self) with
    | .overrun => countFrameError p s
    | .answer code => queueReply p ⟨kind, tag, code, []⟩ s
    | .dispatch _ => finish p tag kind act s

/-- A lane request open to any console (R24, checks 1 and 3). -/
def onLane (lane : Byte) (act : LaneId → State → State × Answer) (s : State) : State × Answer :=
  match laneOf lane with
  | none => (s, .refuse .badArg)
  | some l => act l s

/-- A controller-only lane request (R24, checks 1 to 3). -/
def onOwnLane (p : Console) (lane : Byte) (act : LaneId → State → State × Answer) (s : State) : State × Answer :=
  match laneOf lane with
  | none => (s, .refuse .badArg)
  | some l => if (s.lane l).controller = some p then act l s else (s, .refuse .notController)

end Sys2Proof.Machine
end

