-- ==== Sys2Proof/Machine/Planner.lean ====
section
/-! DEFINITION. The Group Planner (Chapter 5): its queue, the snapshot a plan is computed from, the planning arithmetic,
the interlock and void checks; PLAN_COMPLETION and PLAN_WITHDRAWAL. -/

namespace Sys2Proof.Machine

/-! ### The snapshot (R84, R88, R95) -/

/-- The inputs of one member: its axis as it stands, the stored cap or 100, the stored delay or 0, and 0 on a resume. That
an axis removed meanwhile, which a lane served before its withdrawal is taken may still list, gives limits of 0 is the
model's choice; the result is always dropped (log entry 33). -/
def memberInput (s : State) (resume : Bool) (m : Move) : MemberInput :=
  let ax := s.axis m.axis
  let cfg := ax.config.getD ⟨0, 0, 0, 0, 0, 0, 0, 0⟩
  { axis := m.axis
    state := ax.state
    owner := ax.owner
    target := m.target
    cap := m.cap.getD 100
    delay := if resume then 0 else m.delay.getD 0
    setpoint := ax.setpoint
    low := cfg.low
    high := cfg.high
    vmax := cfg.vmax
    rampFloor := cfg.rampFloor }

/-- The planned target of an axis in a lane's plan record. -/
def plannedTarget (s : State) (l : LaneId) (a : AxisId) : Option Nat :=
  match (s.lane l).plan with
  | none => none
  | some plan => (plan.members.find? (fun m => decide (m.axis = a))).map (·.target)

/-- The reference position of an axis outside the plan: its planned target while it is MOVING under another lane, else
the floor of its setpoint, else of its last feedback (R95). -/
def outsideReference (s : State) (a : AxisId) : Option Nat :=
  let ax := s.axis a
  match ax.state, ax.owner with
  | .moving, some m => (plannedTarget s m a).or (reference ax)
  | _, _ => reference ax

/-- A pair's inputs, when it is active and has a member in the move list (R84, R95). -/
def pairInput (s : State) (members : List AxisId) (n : PairId) : Option PairInput :=
  match s.pairs.get n with
  | none => none
  | some pr =>
    if pairActive s pr && (decide (pr.upper ∈ members) || decide (pr.lower ∈ members)) then
      some ⟨n, pr.upper, pr.lower, pr.gap, outsideReference s pr.upper, outsideReference s pr.lower⟩
    else none

/-- The active pairs with a member in the move list, ascending (R84, R95). -/
def pairInputs (s : State) (members : List AxisId) : List PairInput :=
  (List.finRange 32).filterMap (pairInput s members)

/-- The plan begun for a lane: its inputs as one snapshot (R84), with Tn and every delay 0 on a resume (R98). A lane served
before its withdrawal is taken (R86) may have no current step any more: that the snapshot then reads no moves and an Rs
and a Tn of 0 is the model's choice; the result is always dropped (log entry 33). -/
def snapshot (s : State) (l : LaneId) : PlanJob :=
  let resume := (s.lane l).resume
  let step := currentStep s l
  let moves := match step with | some st => st.moves | none => []
  { lane := l
    resume := resume
    withdrawn := false
    rs := match step with | some st => st.rs | none => 0
    tn := if resume then 0 else match step with | some st => st.tn | none => 0
    members := moves.map (memberInput s resume)
    pairs := pairInputs s (moves.map (·.axis)) }

/-! ### The arithmetic (R88 to R94) -/

/-- The target clamped into the soft limits (R88). -/
def MemberInput.clamped (m : MemberInput) : Nat :=
  if m.target < m.low then m.low else if m.high < m.target then m.high else m.target

/-- The start position; a member with no setpoint has none and takes no part (R87). -/
def MemberInput.start (m : MemberInput) : Nat := m.setpoint.getD 0

/-- The distance to travel, 0 for a member with no setpoint (R88). -/
def MemberInput.distance (m : MemberInput) : Nat :=
  match m.setpoint with
  | none => 0
  | some v => if v ≤ m.clamped * Config.unit then m.clamped * Config.unit - v else v - m.clamped * Config.unit

/-- The direction of travel (R88). -/
def MemberInput.direction (m : MemberInput) : Direction :=
  match m.setpoint with
  | none => .none
  | some v =>
    if v < m.clamped * Config.unit then .up else if m.clamped * Config.unit < v then .down else .none

/-- A moving member has distance to travel (R89). -/
def MemberInput.moves (m : MemberInput) : Bool := decide (m.distance ≠ 0)

/-- The velocity limit of a speed of vmax capped at c percent, in 16.16 mm per period (R90). -/
def velocityLimit (vmax cap : Nat) : Nat := vmax * Config.unit * cap / 20000

/-- Division rounded up. -/
def ceilDiv (a b : Nat) : Nat := (a + b - 1) / b

/-- The group ramp: the largest of Rs and the ramp floors of the moving members (R91). -/
def PlanJob.ramp (j : PlanJob) : Nat :=
  ((j.members.filter (·.moves)).map (·.rampFloor)).foldl max j.rs

/-- The minimum span of a moving member under a group ramp (R92). -/
def MemberInput.minimumSpan (r : Nat) (m : MemberInput) : Nat :=
  max (2 * r) (r + ceilDiv m.distance (velocityLimit m.vmax m.cap))

/-- The group duration: the largest of Tn and D + m over the moving members, 0 when none moves (R93). -/
def PlanJob.duration (j : PlanJob) : Nat :=
  if j.members.any (·.moves) then
    ((j.members.filter (·.moves)).map (fun m => m.delay + m.minimumSpan j.ramp)).foldl max j.tn
  else 0

/-- The plan entry of a member: span and cruise velocity of a moving one (R94), zeros for a stationary one (R89). -/
def planMember (r t : Nat) (m : MemberInput) : PlanMember :=
  { axis := m.axis
    start := m.start
    target := m.clamped
    distance := m.distance
    direction := m.direction
    delay := m.delay
    span := if m.moves then t - m.delay else 0
    cruise := if m.moves then m.distance / (t - m.delay - r) else 0
    clipped := decide (m.clamped ≠ m.target) }

/-- The plan record of an OK result (R97). -/
def PlanJob.plan (j : PlanJob) : PlanRecord :=
  { ramp := j.ramp, duration := j.duration, members := j.members.map (planMember j.ramp j.duration), frozen := 0 }

/-! ### The checks (R85, R87, R95) -/

/-- The reference of an axis of a pair: a member's target, else its reference outside the plan (R95). -/
def PlanJob.reference (j : PlanJob) (a : AxisId) (outside : Option Nat) : Option Nat :=
  match j.members.find? (fun m => decide (m.axis = a)) with
  | some m => some m.clamped
  | none => outside

/-- The end positions of the plan break a pair (R95). -/
def PlanJob.breaks (j : PlanJob) (pr : PairInput) : Bool :=
  match j.reference pr.upper pr.upperOutside, j.reference pr.lower pr.lowerOutside with
  | some u, some l => decide ((u : Int) - (l : Int) < (pr.gap : Int))
  | _, _ => false

/-- A member fails the void check (R87). -/
def memberVoid (s : State) (l : LaneId) (m : MemberInput) : Bool :=
  let ax := s.axis m.axis
  decide (ax.owner ≠ some l) || decide (ax.state ≠ .rest) || !(s.online m.axis) || m.setpoint.isNone ||
    decide (ax.setpoint ≠ m.setpoint)

/-- The first member that fails the void check, in claim-set order (R87). -/
def voidMember (s : State) (j : PlanJob) : Option AxisId :=
  (j.members.find? (memberVoid s j.lane)).map (·.axis)

/-- The result of a plan at completion: VOID whatever the arithmetic found, else TOO_LONG, else INTERLOCK, else OK
(R85). -/
def planOutcome (s : State) (j : PlanJob) : PlanResult :=
  match voidMember s j with
  | some a => .void a
  | none =>
    if Config.durationMax < j.duration then .tooLong
    else
      match j.pairs.find? j.breaks with
      | some pr => .interlock pr.pair
      | none => .ok j.plan

/-! ### The queue (R82 to R86) -/

/-- The Planner begins a plan when it has none in progress and the queue is not empty (R84). -/
def startService (s : State) : State :=
  match s.planner.inProgress, s.planner.queue with
  | none, l :: rest => { s with planner := { s.planner with queue := rest, inProgress := some (snapshot s l) } }
  | _, _ => s

/-- A lane's withdrawal as the Planner takes it: its entry removed, or its plan in progress marked (R86). -/
def withdraw (l : LaneId) (pl : Planner) : Planner :=
  { queue := pl.queue.filter (fun m => decide (m ≠ l))
    inProgress := pl.inProgress.map (fun j => if j.lane = l then { j with withdrawn := true } else j)
    withdrawals := pl.withdrawals.filter (fun m => decide (m ≠ l)) }

/-- Every withdrawal outstanding is taken: its lane's entry removed, and a plan in progress for it marked (R86). -/
def takeWithdrawals (pl : Planner) : Planner :=
  { queue := pl.queue.filter (fun m => decide (m ∉ pl.withdrawals))
    inProgress := pl.inProgress.map (fun j => { j with withdrawn := j.withdrawn || decide (j.lane ∈ pl.withdrawals) })
    withdrawals := [] }

/-- A lane leaving PLANNING by a halt asks the Planner to withdraw it (R67, R86). -/
def askWithdrawal (l : LaneId) (s : State) : State :=
  { s with planner := { s.planner with withdrawals := s.planner.withdrawals ++ [l] } }

/-- A lane joins the tail of the plan queue; a withdrawal it sent before is taken before this addition (R83, log entry
14). Service begins at once when the Planner is idle (R84). -/
def joinQueue (l : LaneId) (s : State) : State :=
  let pl := if l ∈ s.planner.withdrawals then withdraw l s.planner else s.planner
  startService { s with planner := { pl with queue := pl.queue ++ [l] } }

/-- A result is delivered to its lane; a lane no longer in the stay in PLANNING it was made for never takes it (R65). -/
def deliverResult (l : LaneId) (r : PlanResult) (s : State) : State :=
  if (s.lane l).state = .planning then s.updLane l (fun ln => { ln with planResult := some r }) else s

/-- PLAN_COMPLETION (R85): the void check, the result delivered or dropped, and the next plan begun. -/
def completePlan (s : State) : State :=
  match s.planner.inProgress with
  | none => s
  | some j =>
    let s1 : State := { s with planner := { s.planner with inProgress := none } }
    startService (if j.withdrawn then s1 else deliverResult j.lane (planOutcome s j) s1)

def execPlanCompletion (s : State) : Host.Outcome State Fault Refusal :=
  .next (completePlan s)

/-- PLAN_WITHDRAWAL (R86): the Planner takes a withdrawal the lane sent. -/
def execPlanWithdrawal (l : LaneId) (s : State) : Host.Outcome State Fault Refusal :=
  .next (if l ∈ s.planner.withdrawals then { s with planner := withdraw l s.planner } else s)

end Sys2Proof.Machine
end

