-- ==== Sys2Proof/Machine/Motion.lean ====
section
/-! DEFINITION. The Motion Generator (Chapter 6): contexts, rate and profile time, setpoint evaluation, arrivals, tracking
marks and stop trajectories; PERIOD_START, MOTION_GENERATOR_WORK, STOP_TRAJECTORY_STEP, ARRIVAL and TRACKING_MARK. -/

namespace Sys2Proof.Machine

/-! ### Rate and profile time (R105, R106) -/

/-- The effective rate after one slew toward the requested rate (R105). -/
def slew (effective requested : Nat) : Nat :=
  if effective ≤ requested then
    (if requested - effective ≤ Config.rateSlew then requested else effective + Config.rateSlew)
  else (if effective - requested ≤ Config.rateSlew then requested else effective - Config.rateSlew)

/-- The profile time after one advance, capped at 256 × T (R106). -/
def advance (time rate duration : Nat) : Nat := min (time + rate) (256 * duration)

/-! ### Evaluation (R107 to R112) -/

/-- The member's own time since its departure, in 1/256 period (R107). -/
def memberTime (time delay : Nat) : Int := (time : Int) - 256 * (delay : Int)

/-- The distance covered (Table 6-4): v the cruise velocity, d the distance, r the ramp, span the member's span. -/
def covered (v d r span : Nat) (sr : Int) : Nat :=
  if sr ≤ 0 then 0
  else
    let n := sr.toNat
    if n ≤ 256 * r then v * (n * n) / (2 * r * 65536)
    else if n ≤ 256 * span - 256 * r then v * r / 2 + v * (n - 256 * r) / 256
    else if n < 256 * span then d - v * ((256 * span - n) * (256 * span - n)) / (2 * r * 65536)
    else d

/-- The setpoint of a plan member that has covered p (R108). -/
def PlanMember.position (m : PlanMember) (p : Nat) : Nat :=
  match m.direction with
  | .up => m.start + p
  | .down => m.start - p
  | .none => m.start

/-- A context's record of a member's last evaluation (R108). -/
def noteEvaluation (l : LaneId) (a : AxisId) (sr : Int) (s : State) : State :=
  s.setContext l ((s.context l).map (fun c =>
    { c with members := c.members.map (fun m => if m.axis = a then { m with lastEval := some sr } else m) }))

/-- One member's evaluation at a profile time (R108, R112): a MOVING member that has not arrived gets its new setpoint,
and at the end of its span an arrival request. -/
def evaluateMember (l : LaneId) (ramp time : Nat) (s : State) (m : PlanMember) : State :=
  let ax := s.axis m.axis
  if ax.state = .moving ∧ ax.arriving = false then
    let sr := memberTime time m.delay
    let s1 := moveSetpoint m.axis (m.position (covered m.cruise m.distance ramp m.span sr)) s
    let s2 := noteEvaluation l m.axis sr s1
    if (256 * m.span : Nat) ≤ sr then s2.updAxis m.axis (fun x => { x with arriving := true }) else s2
  else s

/-- The moving members of a plan, in claim-set order (R89). -/
def PlanRecord.moving (p : PlanRecord) : List PlanMember := p.members.filter (fun m => decide (m.distance ≠ 0))

/-- A RUNNING lane's work at a period start, as one change (R105, R106, R108, R112, R113). -/
def runningWork (l : LaneId) (c : MotionContext) (plan : PlanRecord) (s : State) : State :=
  let rate := slew (s.lane l).effectiveRate (s.lane l).requestedRate
  let time := advance c.profileTime rate plan.duration
  let s1 := (s.updLane l (fun ln => { ln with effectiveRate := rate })).setContext l
    (some { c with profileTime := time, due := false })
  let s2 := plan.moving.foldl (evaluateMember l plan.ramp time) s1
  if time = 256 * plan.duration then
    s2.setContext l ((s2.context l).map (fun c => { c with profileEnd := true }))
  else s2

/-- The moving members whose tracking marks are clear, in claim-set order (R103). -/
def MotionContext.untracked (c : MotionContext) : List AxisId :=
  (c.members.filter (fun m => !m.tracking)).map (·.axis)

/-- A RELEASING lane's work at a period start: the release count, and at 200 the expiry reported with the untracked
members (R103). -/
def releaseWork (l : LaneId) (c : MotionContext) (s : State) : State :=
  let count := min (c.releaseCount + 1) Config.releaseTimeout
  let expired := decide (c.releaseCount < Config.releaseTimeout ∧ count = Config.releaseTimeout ∧ c.untracked ≠ [])
  s.setContext l (some { c with
    releaseCount := count
    expiry := if expired then some c.untracked else c.expiry
    due := false })

/-- MOTION_GENERATOR_WORK (R100, Table 6-3): one lane's work, when this period start's work is still due. -/
def generatorWork (l : LaneId) (s : State) : State :=
  match s.context l with
  | none => s
  | some c =>
    if c.due then
      match (s.lane l).state, (s.lane l).plan with
      | .releasing, _ => releaseWork l c s
      | .running, some plan => runningWork l c plan s
      | _, _ => s.setContext l (some { c with due := false })
    else s

def execMotionGeneratorWork (l : LaneId) (s : State) : Host.Outcome State Fault Refusal :=
  .next (generatorWork l s)

/-! ### Contexts and members (R99, R7, R102) -/

/-- A new context for a plan (R99). -/
def newContext (p : PlanRecord) : MotionContext :=
  { profileTime := 0
    releaseCount := 0
    members := p.moving.map (fun m => ⟨m.axis, false, none⟩)
    expiry := none
    profileEnd := false
    due := false }

/-- A moving member is started: REST becomes MOVING with its previous setpoint equal to its setpoint (R7). Frames built
before, and the replies to them, can set no tracking mark from here on (R102). -/
def startMember (s : State) (a : AxisId) : State :=
  if (s.axis a).state = .rest then
    let s1 := s.updAxis a (fun ax => { ax with state := .moving, previous := ax.setpoint, arriving := false })
    let s2 := s1.setStation a ((s1.station a).map (fun e =>
      { e with frame := e.frame.map (fun f => { f with sinceMoving := false }) }))
    s2.updMessages (fun m => { m with markNotices := m.markNotices.map (fun n =>
      if n.axis = a then { n with sinceMoving := false } else n) })
  else s

/-- The tracking mark of an axis, read from the context of the lane that owns it; clear when it is no moving member of a
context (R102, R138). -/
def trackingMark (s : State) (a : AxisId) : Bool :=
  match (s.axis a).owner with
  | none => false
  | some l =>
    match s.context l with
    | none => false
    | some c => c.members.any (fun m => decide (m.axis = a) && m.tracking)

/-- The axis is a moving member of the context of its owner (R102). -/
def movingMember (s : State) (a : AxisId) : Bool :=
  match (s.axis a).owner with
  | none => false
  | some l =>
    match s.context l with
    | none => false
    | some c => c.members.any (fun m => decide (m.axis = a))

/-- A context's mark of one member is set; once the release timeout has expired a late mark changes nothing (R102,
R103). -/
def markMember (a : AxisId) (c : MotionContext) : MotionContext :=
  if c.expiry.isSome then c
  else { c with members := c.members.map (fun m => if m.axis = a then { m with tracking := true } else m) }

/-- A good reply sets the member's tracking mark: TRACKING, for a FOLLOW frame built after the member last entered
MOVING (R102). -/
def setMark (n : MarkNotice) (s : State) : State :=
  if n.tracking ∧ n.mode = .follow ∧ n.sinceMoving then
    match (s.axis n.axis).owner with
    | none => s
    | some l => s.setContext l ((s.context l).map (markMember n.axis))
  else s

/-- TRACKING_MARK (R102): the Motion Generator takes the oldest reply handed to it for an axis. -/
def takeMark (a : AxisId) (s : State) : State :=
  match s.messages.markNotices.find? (fun n => decide (n.axis = a)) with
  | none => s
  | some n => setMark n (s.updMessages (fun m => { m with markNotices := m.markNotices.erase n }))

def execTrackingMark (a : AxisId) (s : State) : Host.Outcome State Fault Refusal :=
  .next (takeMark a s)

/-- ARRIVAL (R112, R8): the Axis Table takes an arrival request; a MOVING axis becomes REST at its target, and any other
is left as it is (R10). -/
def takeArrival (a : AxisId) (s : State) : State :=
  if (s.axis a).arriving then
    s.updAxis a (fun ax => { ax with state := if ax.state = .moving then .rest else ax.state, arriving := false })
  else s

def execArrival (a : AxisId) (s : State) : Host.Outcome State Fault Refusal :=
  .next (takeArrival a s)

/-! ### Controlled stops (R116 to R119) -/

/-- The magnitude of setpoint minus previous setpoint: the last commanded velocity (R11, R116). -/
def lastMovement (ax : Axis) : Nat :=
  match ax.setpoint, ax.previous with
  | some v, some w => if w ≤ v then v - w else w - v
  | _, _ => 0

/-- A member has departed: its last evaluation holds a time above 0 (R108). -/
def departed (s : State) (l : LaneId) (a : AxisId) : Bool :=
  match s.context l with
  | none => false
  | some c => c.members.any (fun m => decide (m.axis = a) && match m.lastEval with
      | some sr => decide (0 < sr)
      | none => false)

/-- The plan's direction of a member (R116). -/
def plannedDirection (s : State) (l : LaneId) (a : AxisId) : Direction :=
  match (s.lane l).plan with
  | none => .none
  | some plan =>
    match plan.members.find? (fun m => decide (m.axis = a)) with
    | some m => m.direction
    | none => .none

/-- The lane's work of this period start is still to be done (R100). -/
def workDue (s : State) (l : LaneId) : Bool :=
  match s.context l with
  | some c => c.due
  | none => false

/-- What a controlled halt does with one member (R116): a MOVING member that has departed and moves becomes STOPPING
with a stop record, any other MOVING member REST. A halt taken before the lane's work of a period start finds the first
step of the trajectory due at that period start, and one taken after it at the next (R116, R117, 6.9). -/
def haltMember (l : LaneId) (s : State) (a : AxisId) : State :=
  let ax := s.axis a
  if ax.state = .moving then
    if departed s l a = true ∧ lastMovement ax ≠ 0 then
      (setAxisState a .stopping s).setStop a (some
        { velocity := lastMovement ax
          direction := plannedDirection s l a
          rampFloor := match ax.config with | some c => c.rampFloor | none => 0
          index := 0
          posted := false
          due := workDue s l })
    else setAxisState a .rest s
  else s

/-- One step of a stop trajectory at index j: the movement (R117). -/
def stopMovement (v rf j : Nat) : Nat := v * (rf - j) / rf

/-- Where a stop step ends, and whether the soft limit clamped it there (R117, R118). -/
def stopTarget (cfg : AxisConfig) (dir : Direction) (at_ movement : Nat) : Nat × Bool :=
  match dir with
  | .up =>
    if cfg.high * Config.unit < at_ + movement then (cfg.high * Config.unit, true) else (at_ + movement, false)
  | .down =>
    if at_ < cfg.low * Config.unit + movement then (cfg.low * Config.unit, true) else (at_ - movement, false)
  | .none => (at_, false)

/-- The limit that a clamp reached, in whole millimetres (R118). -/
def stopLimit (cfg : AxisConfig) (dir : Direction) : Nat :=
  match dir with
  | .down => cfg.low
  | _ => cfg.high

/-- A lane in STOPPING enters HELD once no member is MOVING or STOPPING: hold latch cleared, context discarded (R71,
R120). -/
def endTest (l : LaneId) (s : State) : State :=
  if (s.lane l).state = .stopping ∧ membersAtRest s l = true then
    changeState l .held (dropContext l (s.updLane l (fun ln => { ln with holdLatch := false })))
  else s

/-- One step of a stop trajectory (R117, R118): the movement, the clamp with its one TARGET_CLIPPED, the write, and at
the last step REST and the lane's end test. -/
def trajectoryStep (a : AxisId) (r : StopRecord) (cfg : AxisConfig) (v : Nat) (s : State) : State :=
  let j := r.index + 1
  let target := stopTarget cfg r.direction v (stopMovement r.velocity r.rampFloor j)
  let s1 := if target.2 && !r.posted then
      s.emit (.stopClipped a (s.axis a).owner (stopLimit cfg r.direction)) else s
  let s2 := moveSetpoint a target.1
    (s1.setStop a (some { r with index := j, posted := r.posted || target.2, due := false }))
  if r.rampFloor ≤ j then
    let s3 := (setAxisState a .rest s2).setStop a none
    match (s.axis a).owner with
    | some l => endTest l s3
    | none => s3
  else s2

/-- STOP_TRAJECTORY_STEP (R117), when this period start's step is still due. -/
def stopStep (a : AxisId) (s : State) : State :=
  match s.stop a, (s.axis a).config, (s.axis a).setpoint with
  | some r, some cfg, some v => if r.due then trajectoryStep a r cfg v s else s
  | _, _, _ => s

def execStopTrajectoryStep (a : AxisId) (s : State) : Host.Outcome State Fault Refusal :=
  .next (stopStep a s)

/-! ### The period start (R176) -/

/-- A lane's TIMED count is due at a period start that finds it in FOLLOW (R77). -/
def followDueAt (ln : Lane) : Bool :=
  decide (ln.state = .follow) && decide (ln.followKind = some .timed)

/-- PERIOD_START (R176): the period count increases before any block's work; then the work of the blocks begins: what
each has to do at this period start becomes due (R77, R100, R153), and running outage accumulators increase (R163). -/
def beginPeriod (s : State) : State :=
  { s with
    period := s.period + 1
    lanes := s.lanes.map (fun ln => { ln with followDue := followDueAt ln })
    contexts := s.contexts.map (fun co => co.map (fun c => { c with due := true }))
    stops := s.stops.map (fun ro => ro.map (fun r => { r with due := true }))
    stations := s.stations.map (fun eo => eo.map (fun e => { e with outage := e.outage.map bump }))
    link := { s.link with round := some 0 } }

def execPeriodStart (s : State) : Host.Outcome State Fault Refusal :=
  .next (beginPeriod s)

end Sys2Proof.Machine
end

