-- ==== Sys2Proof/Machine/Lanes.lean ====
section
/-! DEFINITION. The Lane Controller (Chapters 2 and 4): GO and the automatic GO, plan results, release, halts, step
completion, follow waits and the hold latch; the lane's own steps. -/

namespace Sys2Proof.Machine

/-! ### Starting a step (R61 to R63) -/

/-- The checks of a GO in order (R61): latch, ENABLE, current step, claim. `c` is the console whose ENABLE is tested. -/
def goChecks (l : LaneId) (c : Option Console) (s : State) : Except Refused State :=
  if s.latch then .error (.plain .estop)
  else if (match c with | some k => s.enabled k | none => false) = false then .error (.plain .notEnabled)
  else
    match currentStep s l with
    | none => .error (.plain .noStep)
    | some st => claim l (st.moves.map (·.axis)) s

/-- The lane enters PLANNING and joins the tail of the plan queue (R61, R62, R83). -/
def enterPlanning (l : LaneId) (resume : Bool) (s : State) : State :=
  let s1 := s.updLane l (fun ln =>
    { ln with resume := resume, haltCause := .none, plan := none, planResult := none, followDue := false, decrements := 0 })
  joinQueue l (changeState l .planning s1)

/-- The lane's follow wait ends and it enters READY (R63, R79). -/
def endFollow (l : LaneId) (s : State) : State :=
  changeState l .ready (s.updLane l (fun ln => { ln with followDue := false, decrements := 0 }))

/-- The automatic GO of a lane in FOLLOW, with its controller's ENABLE: PLANNING, or READY with GO_REFUSED (R63). -/
def automaticGo (l : LaneId) (s : State) : State :=
  match goChecks l (s.lane l).controller s with
  | .ok s1 => enterPlanning l false s1
  | .error r => (endFollow l s).emit (.goRefused l r.code r.axis r.lane)

/-- FOLLOW_EXPIRY (R77): the TIMED count of this period start, and at 0 the automatic GO. -/
def followCount (l : LaneId) (s : State) : State :=
  let ln := s.lane l
  if ln.state = .follow ∧ ln.followKind = some .timed ∧ ln.followDue = true then
    let s1 := s.updLane l (fun x => { x with followCounter := x.followCounter - 1, followDue := false })
    if ln.followCounter ≤ 1 then automaticGo l s1 else s1
  else s

def execFollowExpiry (l : LaneId) (s : State) : Host.Outcome State Fault Refusal :=
  .next (followCount l s)

/-- LINKED_DECREMENT (R78): the lane takes one completion of its linked lane, and at 0 makes its automatic GO. -/
def linkedCount (l : LaneId) (s : State) : State :=
  let ln := s.lane l
  if ln.state = .follow ∧ 0 < ln.decrements then
    let s1 := s.updLane l (fun x => { x with followCounter := x.followCounter - 1, decrements := x.decrements - 1 })
    if ln.followCounter ≤ 1 then automaticGo l s1 else s1
  else s

def execLinkedDecrement (l : LaneId) (s : State) : Host.Outcome State Fault Refusal :=
  .next (linkedCount l s)

/-! ### Leaving the motion states -/

/-- The hold latch is cleared (R81). -/
def clearHold (l : LaneId) (s : State) : State := s.updLane l (fun ln => { ln with holdLatch := false })

/-- The halt cause is recorded (R22). -/
def recordHalt (l : LaneId) (cause : HaltCause) (s : State) : State :=
  s.updLane l (fun ln => { ln with haltCause := cause })

/-- A fresh start gives its axes back and enters READY; a resume keeps them and enters HELD. The hold latch is cleared
(R66, R67, R68, R69). A READY lane holds no plan record. -/
def standDown (l : LaneId) (s : State) : State :=
  let s1 := clearHold l s
  if (s.lane l).resume then changeState l .held s1
  else changeState l .ready (release l (s1.updLane l (fun ln => { ln with plan := none })))

/-- A halt in PLANNING: the plan is withdrawn and the lane stands down (R67). -/
def planningHalt (l : LaneId) (cause : HaltCause) (s : State) : State :=
  standDown l (askWithdrawal l
    (recordHalt l cause (s.updLane l (fun ln => { ln with planResult := none }))))

/-- A halt in RELEASING other than the emergency: members return to REST and the lane stands down (R69). -/
def releaseHalt (l : LaneId) (cause : HaltCause) (s : State) : State :=
  standDown l (dropContext l (restMembers l (recordHalt l cause s)))

/-- A controlled halt in RUNNING: stop trajectories, STOPPING, and HELD at once when no member is STOPPING (R70,
R116). -/
def controlledStop (l : LaneId) (cause : HaltCause) (s : State) : State :=
  let s1 := recordHalt l cause (settleArrivals l s)
  let s2 := (s.lane l).claimSet.foldl (haltMember l) s1
  endTest l (changeState l .stopping s2)

/-- A CONTROLLED halt of the lane as a whole, a HALT request or an ENABLE loss, by its state (Table 7-2). -/
def haltLane (l : LaneId) (cause : HaltCause) (s : State) : State :=
  match (s.lane l).state with
  | .planning => planningHalt l cause s
  | .releasing => releaseHalt l cause s
  | .running => controlledStop l cause s
  | .follow => endFollow l (recordHalt l cause s)
  | .idle | .ready | .stopping | .held => s

/-- The emergency in RELEASING, RUNNING or STOPPING: HELD at once, members REST (R72). -/
def emergencyHold (l : LaneId) (s : State) : State :=
  changeState l .held (clearHold l (dropContext l (recordHalt l .estop (brakeMembers l s))))

/-- An emergency taken by the lane's state (R126). -/
def emergencyLane (l : LaneId) (s : State) : State :=
  match (s.lane l).state with
  | .planning => planningHalt l .estop s
  | .releasing | .running | .stopping => emergencyHold l s
  | .idle | .ready | .held | .follow => s

/-- The lane takes one delivery of its inbox, when it is there, and acts on it. -/
def takeDelivery (l : LaneId) (m : LaneMessage) (act : State → State) (s : State) : State :=
  if m ∈ (s.lane l).inbox then act (s.updLane l (fun ln => { ln with inbox := ln.inbox.erase m })) else s

/-- EMERGENCY (R126). -/
def execEmergency (l : LaneId) (s : State) : Host.Outcome State Fault Refusal :=
  .next (takeDelivery l .emergency (emergencyLane l) s)

/-- An ENABLE loss of console c taken by a lane that c controls (R131). -/
def enableLoss (l : LaneId) (c : Console) (s : State) : State :=
  if (s.lane l).controller = some c then haltLane l .enable s else s

/-- ENABLE_HALT (R131). -/
def execEnableHalt (l : LaneId) (c : Console) (s : State) : Host.Outcome State Fault Refusal :=
  .next (takeDelivery l (.enableLoss c) (enableLoss l c) s)

/-- A fault notice taken by the lane's state (Table 8-2); a lane that no longer owns the axis takes nothing from it (R142).
That a notice still untaken when the lane owns the axis in a later motion (released and claimed anew, or cleared in HELD
and resumed) is acted on by the ownership and the state it finds is the model's choice (log entry 35). -/
def faultNotice (l : LaneId) (a : AxisId) (s : State) : State :=
  if (s.axis a).owner = some l then
    match (s.lane l).state with
    | .releasing => releaseHalt l (.fault a) s
    | .running => controlledStop l (.fault a) s
    | .stopping => endTest l s
    | .idle | .ready | .planning | .held | .follow => s
  else s

/-- The fault notice a lane takes next: the oldest of those delivered to it, since each finds the state the one before it
left (R143). -/
def nextNotice (ln : Lane) : Option AxisId :=
  ln.inbox.findSome? (fun m => match m with | .fault a => some a | _ => none)

/-- FAULT_NOTICE (R142, R143): the lane takes the notice of the axis when it is the oldest. -/
def takeNotice (l : LaneId) (a : AxisId) (s : State) : State :=
  if nextNotice (s.lane l) = some a then takeDelivery l (.fault a) (faultNotice l a) s else s

def execFaultNotice (l : LaneId) (a : AxisId) (s : State) : Host.Outcome State Fault Refusal :=
  .next (takeNotice l a s)

/-- An interlock trip taken by a lane: a RUNNING owner of one of the pair's axes is halted, any other lane is left as it
is (R148). That a trip taken after its slot was emptied or rewritten is judged on the slot's present entry, and changes
nothing where the slot is empty, is the model's choice (log entry 36). -/
def interlockTrip (l : LaneId) (n : PairId) (s : State) : State :=
  match s.pairs.get n with
  | none => s
  | some pr =>
    if (s.lane l).state = .running ∧ l ∈ pairOwners s pr then controlledStop l (.interlock n) s else s

/-- INTERLOCK_TRIP (R148). -/
def execInterlockTrip (l : LaneId) (n : PairId) (s : State) : Host.Outcome State Fault Refusal :=
  .next (takeDelivery l (.trip n) (interlockTrip l n) s)

/-- A hold assertion of SHn taken by a lane that listens to it (R79, R80, R133). -/
def holdAssertion (l : LaneId) (n : HoldLine) (s : State) : State :=
  if (s.lane l).holdSource = some n then
    match (s.lane l).state with
    | .planning | .releasing | .running => s.updLane l (fun ln => { ln with holdLatch := true })
    | .follow => endFollow l (clearHold l s)
    | .idle | .ready | .stopping | .held => s
  else s

/-- HOLD_ASSERTION (R80). -/
def execHoldAssertion (l : LaneId) (n : HoldLine) (s : State) : Host.Outcome State Fault Refusal :=
  .next (takeDelivery l (.hold n) (holdAssertion l n) s)

/-! ### Plan results and release (R65, R66, R68) -/

/-- The lane enters RUNNING with its effective rate at the requested rate (R104). A lane that enters after a period start
and before its own work there is advanced by that work (the model's choice, log entry 6). -/
def enterRunning (l : LaneId) (s : State) : State :=
  changeState l .running (s.updLane l (fun ln => { ln with effectiveRate := ln.requestedRate }))

/-- The step's own target of an axis, for TARGET_CLIPPED (R65). -/
def askedTarget (s : State) (l : LaneId) (a : AxisId) : Nat :=
  match currentStep s l with
  | none => 0
  | some st =>
    match st.moves.find? (fun m => decide (m.axis = a)) with
    | some m => m.target
    | none => 0

/-- One TARGET_CLIPPED for a CLIPPED member (R65). -/
def postClipped (l : LaneId) (s : State) (m : PlanMember) : State :=
  if m.clipped then s.emit (.targetClipped m.axis l (askedTarget s l m.axis) m.target) else s

/-- A successful plan: the record stored, the context made, RELEASING, members started, TARGET_CLIPPED events, and on to
RUNNING when no member moves (R65). That the TARGET_CLIPPED events stand in claim-set order, and before a LANE_STATE from
RELEASING to RUNNING, is the model's choice (log entry 29). -/
def acceptPlan (l : LaneId) (plan : PlanRecord) (s : State) : State :=
  let s1 := (s.updLane l (fun ln => { ln with plan := some plan })).setContext l (some (newContext plan))
  let s2 := (plan.moving.map (·.axis)).foldl startMember s1
  let s3 := plan.members.foldl (postClipped l) (changeState l .releasing s2)
  if plan.moving = [] then enterRunning l s3 else s3

/-- A failed or void plan: PLAN_VOID, then the lane stands down (R66). -/
def rejectPlan (l : LaneId) (reason : VoidReason) (s : State) : State :=
  standDown l (s.emit (.planVoid l reason))

/-- PLAN_RESULT: a PLANNING lane takes the result delivered to it (R65, R66). -/
def takeResult (l : LaneId) (s : State) : State :=
  match (s.lane l).state, (s.lane l).planResult with
  | .planning, some r =>
    let s1 := s.updLane l (fun ln => { ln with planResult := none })
    match r with
    | .ok plan => acceptPlan l plan s1
    | .void a => rejectPlan l (.void a) s1
    | .tooLong => rejectPlan l .tooLong s1
    | .interlock n => rejectPlan l (.interlock n) s1
  | _, _ => s

def execPlanResult (l : LaneId) (s : State) : Host.Outcome State Fault Refusal :=
  .next (takeResult l s)

/-- RELEASE_END: a RELEASING lane whose moving members have all reported TRACKING enters RUNNING (R68, R104). After an
expiry has been reported the marks of its members stay clear (R103), so no release ends then. -/
def endRelease (l : LaneId) (s : State) : State :=
  match (s.lane l).state, s.context l with
  | .releasing, some c => if c.members.all (·.tracking) then enterRunning l s else s
  | _, _ => s

def execReleaseEnd (l : LaneId) (s : State) : Host.Outcome State Fault Refusal :=
  .next (endRelease l s)

/-- FAULTED, whatever the cause. -/
def AxisState.isFaulted : AxisState → Bool
  | .faulted _ => true
  | .unconfigured | .offline | .rest | .moving | .stopping => false

/-- The axis a release timeout's halt cause names: the first reported member that stands FAULTED once the faults have been
asked for (R68). Where none does, each being OFFLINE, the manual names none, and the first reported one is the model's
choice (log entry 30). -/
def timeoutAxis (s : State) (first : AxisId) (reported : List AxisId) : AxisId :=
  (reported.find? (fun b => (s.axis b).state.isFaulted)).getD first

/-- RELEASE_TIMEOUT: BRAKE_TIMEOUT on each member of the reported list, REST for the others, and the lane stands down
with halt cause FAULT of the first faulted one (R68). That all of it is one step is log entry 20. That the faults are
applied, and their AXIS_FAULT events posted, in the order of the list is the model's choice (log entry 38). That the fault is asked
for on a reported member that stands REST when the timeout is taken, having gone OFFLINE before its start and rejoined, is
the model's choice: R7 speaks of the MOVING members, R68 and R103 of the moving members reported (log entry 32). -/
def expireRelease (l : LaneId) (s : State) : State :=
  match (s.lane l).state, s.context l with
  | .releasing, some c =>
    match c.expiry with
    | some (a :: rest) =>
      let s1 := (a :: rest).foldl (fun t b => applyFault b .brakeTimeout t) s
      standDown l (dropContext l (restMembers l (recordHalt l (.fault (timeoutAxis s1 a (a :: rest))) s1)))
    | _ => s
  | _, _ => s

def execReleaseTimeout (l : LaneId) (s : State) : Host.Outcome State Fault Refusal :=
  .next (expireRelease l s)

/-! ### Step completion (R74 to R76) -/

/-- What a completed step's next step resolves to (R75). -/
inductive Resolved where
  | goes (step : StepRef) (remaining : Nat)
  | ends (broken : Bool)
  deriving DecidableEq, Repr

/-- The resolution of the current step (R75, R52). -/
def resolveNext (s : State) (l : LaneId) : Resolved :=
  let ln := s.lane l
  let step := currentStep s l
  let next := match step with | some st => st.next | none => none
  let present := match next with | some n => (s.cues.slots.get n).isSome | none => false
  match ln.current, next, present with
  | some .direct, _, _ => .ends false
  | _, some n, true => .goes (.numbered n) ln.repeatRemaining
  | _, _, _ =>
    match ln.base with
    | none => .ends next.isSome
    | some b =>
      if ln.repeatRemaining = Config.endless then .goes b ln.repeatRemaining
      else if ln.repeatRemaining = 0 then .ends next.isSome
      else .goes b (ln.repeatRemaining - 1)

/-- The completion is offered: each lane in FOLLOW linked with this one has one more completion to take (R74, R78, log
entry 16). -/
def offerCompletion (l : LaneId) (s : State) : State :=
  { s with lanes := s.lanes.mapIdx (fun m ln =>
      if m ≠ l ∧ ln.state = .follow ∧ ln.followKind = some (.linked l) then
        { ln with decrements := ln.decrements + 1 } else ln) }

/-- Closing the step (R74): axes released, plan record dropped, the last-completed record, STEP_DONE, the completion
offered. -/
def closeStep (l : LaneId) (s : State) : State :=
  let ln := s.lane l
  let clipped := match ln.plan with | some p => p.members.any (·.clipped) | none => false
  let done := ln.current.getD .direct
  let s1 := release l ((settleArrivals l s).setContext l none)
  let s2 := s1.updLane l (fun x =>
    { x with plan := none, lastCompleted := some ⟨done, s.period, ln.resume, clipped⟩ })
  offerCompletion l (s2.emit (.stepDone l done ln.resume clipped))

/-- The end of the sequence: IDLE with SEQ_END set and the hold latch cleared (R75). -/
def endSequence (l : LaneId) (broken : Bool) (s : State) : State :=
  let s1 := s.updLane l (fun ln => { ln with seqEnd := true, holdLatch := false })
  changeState l .idle (s1.emit (.seqEnd l (s.lane l).base broken))

/-- Entry to FOLLOW with its counter and kind (R76); a TIMED wait of 0 expires at once. -/
def enterFollow (l : LaneId) (kind : FollowKind) (count : Nat) (s : State) : State :=
  let s1 := changeState l .follow (s.updLane l (fun ln =>
    { ln with followCounter := count, followKind := some kind, followDue := false, decrements := 0 }))
  if count = 0 ∧ kind = .timed then automaticGo l s1 else s1

/-- The choice of the new state when the sequence goes on (R76), by the hold latch and the completed step's mode. -/
def continueSequence (l : LaneId) (mode : FollowMode) (s : State) : State :=
  if (s.lane l).holdLatch then changeState l .ready (clearHold l s)
  else
    match mode with
    | .manual => changeState l .ready s
    | .timed w => enterFollow l .timed w s
    | .linked m n => if m = l then changeState l .ready s else enterFollow l (.linked m) n s

/-- STEP_COMPLETION (R74 to R76): a RUNNING lane takes the end-of-profile report. -/
def completeStep (l : LaneId) (s : State) : State :=
  match (s.lane l).state, s.context l with
  | .running, some c =>
    if c.profileEnd then
      let mode := match currentStep s l with | some st => st.follow | none => .manual
      let resolved := resolveNext s l
      let s1 := closeStep l s
      match resolved with
      | .ends broken => endSequence l broken s1
      | .goes step remaining =>
        continueSequence l mode
          (s1.updLane l (fun ln => { ln with current := some step, repeatRemaining := remaining }))
    else s
  | _, _ => s

def execStepCompletion (l : LaneId) (s : State) : Host.Outcome State Fault Refusal :=
  .next (completeStep l s)

end Sys2Proof.Machine
end

