-- ==== Sys2Proof/Machine/Cues.lean ====
section
/-! DEFINITION. The Cue Store (Chapter 3): checking and storing a step, the pool and the in-use rule; PUT_STEP, DROP_STEP
and GET_STEP. -/

namespace Sys2Proof.Machine

/-! ### Checking a step's fields (R43, R46, R49) -/

/-- The stored speed cap: 0 becomes 1, above 100 becomes 100 (R46). -/
def storedCap (b : Byte) : Nat :=
  if b.toNat = 0 then 1 else if 100 < b.toNat then 100 else b.toNat

/-- An entry's cap is clamped when its stored value differs from the value sent (R46). -/
def RawMove.clamps (m : RawMove) : Bool :=
  match m.cap with
  | some b => decide (storedCap b ≠ b.toNat)
  | none => false

/-- The number of caps clamped (R45, R46). -/
def clampedCount (ms : List RawMove) : Nat := (ms.filter RawMove.clamps).length

/-- A move entry as stored, none when its axis, target or delay is out of range (R43 check 3). -/
def checkMove (m : RawMove) : Option Move :=
  match axisOf m.axis with
  | none => none
  | some a =>
    if 40000 < m.target.toNat ∨ 4095 < (m.delay.map (·.toNat)).getD 0 then none
    else some ⟨a, m.target.toNat, m.cap.map storedCap, m.delay.map (·.toNat)⟩

/-- A move list as stored, none when an entry is out of range. -/
def checkMoves : List RawMove → Option (List Move)
  | [] => some []
  | m :: rest =>
    match checkMove m, checkMoves rest with
    | some x, some xs => some (x :: xs)
    | _, _ => none

/-- The follow mode its bytes spell, none when out of range (Table 12-2). -/
def checkFollow (kind : Byte) (a : Half) (b : Byte) : Option FollowMode :=
  match kind.toNat with
  | 0 => some .manual
  | 1 => some (.timed a.toNat)
  | 2 =>
    if h : a.toNat < 8 then
      if 1 ≤ b.toNat ∧ b.toNat ≤ 15 then some (.linked ⟨a.toNat, h⟩ b.toNat) else none
    else none
  | _ => none

/-- The next step its bytes spell: END for 0xFFFF, none when out of range. -/
def checkNext (n : Half) : Option (Option StepNo) :=
  if n = 0xFFFF then some none else (stepOf n).map some

/-- Rs in its range (Table 3-1). -/
def rampOk (rs : Half) : Bool := decide (10 ≤ rs.toNat) && decide (rs.toNat ≤ 400)

/-- A move list that passes checks 2 to 4 of R43 (R49 for DIRECT), with its largest length. -/
def checkList (longest : Nat) (ms : List RawMove) : Option (List Move) :=
  if ms.length = 0 ∨ longest < ms.length then none
  else
    match checkMoves ms with
    | none => none
    | some xs => if (xs.map (·.axis)).Nodup then some xs else none

/-- The step a PUT STEP writes, none when a check of 2 to 4 fails (R43). -/
def checkStep (b : RawStep) : Option Step :=
  match checkList 16 b.moves, checkFollow b.followKind b.followA b.followB, checkNext b.next with
  | some moves, some follow, some next =>
    if rampOk b.rs then some ⟨b.label.toNat, b.rs.toNat, b.tn.toNat, follow, next, moves⟩ else none
  | _, _, _ => none

/-- The private step a DIRECT writes, none when its move-data checks fail (R49). -/
def checkDirect (rs tn : Half) (ms : List RawMove) : Option Step :=
  match checkList 4 ms with
  | some moves => if rampOk rs then some ⟨0, rs.toNat, tn.toNat, .manual, none, moves⟩ else none
  | none => none

/-! ### The pool and the in-use rule (R42, R44) -/

/-- Entries a slot takes from the pool. -/
def entries (so : Option Step) : Nat :=
  match so with
  | some st => st.moves.length
  | none => 0

/-- Entries taken by all numbered steps. -/
def CueStore.taken (c : CueStore) : Nat := (c.slots.cells.map entries).sum

/-- The free count (R42). -/
def CueStore.free (c : CueStore) : Nat := Config.poolSize - c.taken

/-- The lanes that hold a numbered step in use: not IDLE, and it is their base or current step (R44). -/
def usersOf (s : State) (n : StepNo) : List LaneId :=
  (List.finRange 8).filter (fun l =>
    let ln := s.lane l
    decide (ln.state ≠ .idle) && (decide (ln.base = some (.numbered n)) || decide (ln.current = some (.numbered n))))

/-- A numbered step is in use (R44). -/
def inUse (s : State) (n : StepNo) : Bool := !(usersOf s n).isEmpty

/-- A slot written whole or emptied (R45, R47). -/
def setSlot (n : StepNo) (so : Option Step) (s : State) : State :=
  { s with cues := { s.cues with slots := s.cues.slots.set n so } }

/-! ### PUT STEP, DROP STEP, GET STEP -/

/-- PUT STEP's checks and change (R43, R45). -/
def putStep (step : Half) (b : RawStep) (s : State) : State × Answer :=
  match stepOf step, checkStep b with
  | some n, some st =>
    if inUse s n then (s, .refuse .stepInUse)
    else if s.cues.free + entries (s.cues.slots.get n) < st.moves.length then (s, .refuse .poolFull)
    else
      let s1 := setSlot n (some st) s
      (s1, .ok (be16 s1.cues.free ++ [byteOf (clampedCount b.moves)]))
  | _, _ => (s, .refuse .badArg)

def execPutStep (p : Console) (tag : Byte) (step : Half) (body : RawStep) (s : State) :
    Host.Outcome State Fault Refusal :=
  .next (serve p tag 0x20 (.putStep p tag step body) (putStep step body) s)

/-- DROP STEP's checks and change (R47). -/
def dropStep (step : Half) (s : State) : State × Answer :=
  match stepOf step with
  | none => (s, .refuse .badArg)
  | some n =>
    if (s.cues.slots.get n).isNone then (s, .refuse .noStep)
    else if inUse s n then (s, .refuse .stepInUse)
    else
      let s1 := setSlot n none s
      (s1, .ok (be16 s1.cues.free))

def execDropStep (p : Console) (tag : Byte) (step : Half) (s : State) : Host.Outcome State Fault Refusal :=
  .next (serve p tag 0x21 (.dropStep p tag step) (dropStep step) s)

/-- A move entry as GET STEP reports it (Table 12-2a). That the bits of the presence byte above bit 1, which the table leaves
unread on input, are sent as 0 is the model's choice (log entry 12). -/
def Move.bytes (m : Move) : List Byte :=
  let presence := (if m.cap.isSome then 1 else 0) + (if m.delay.isSome then 2 else 0)
  [byteOf presence, byteOf m.axis.val] ++ be16 m.target ++
    (match m.cap with | some c => [byteOf c] | none => []) ++
    (match m.delay with | some d => be16 d | none => [])

/-- A step as GET STEP reports it (R48). -/
def stepReport (number : Nat) (st : Step) (users : List LaneId) (free : Nat) : List Byte :=
  be16 number ++ be16 st.label ++ be16 st.rs ++ be16 st.tn ++ st.follow.bytes ++ nextBytes st.next ++
    byteOf st.moves.length :: (st.moves.map Move.bytes).flatten ++ [laneBits users] ++ be16 free

/-- The present step with the lowest number at or above the one named (R48). -/
def scanFrom (s : State) (n : StepNo) : Option StepNo :=
  (s.cues.slots.indices Option.isSome).find? (fun m => decide (n ≤ m))

/-- GET STEP's answer for a numbered slot (R48). -/
def reportSlot (s : State) (no : Option StepNo) : Answer :=
  match no with
  | none => .refuse .noStep
  | some n =>
    match s.cues.slots.get n with
    | none => .refuse .noStep
    | some st => .ok (stepReport n.val st (usersOf s n) s.cues.free)

/-- GET STEP (R48): selector 0 a numbered step, 1 with the scan option, 2 a lane's private step, which is never in use
in the sense of R44 (R49). -/
def getStep (selector : Byte) (number : Half) (s : State) : State × Answer :=
  match selector.toNat with
  | 0 => (s, match stepOf number with | none => .refuse .badArg | some n => reportSlot s (some n))
  | 1 => (s, match stepOf number with | none => .refuse .badArg | some n => reportSlot s (scanFrom s n))
  | 2 =>
    if h : number.toNat < 8 then
      match s.cues.privates.get ⟨number.toNat, h⟩ with
      | none => (s, .refuse .noStep)
      | some st => (s, .ok (stepReport number.toNat st [] s.cues.free))
    else (s, .refuse .badArg)
  | _ => (s, .refuse .badArg)

def execGetStep (p : Console) (tag : Byte) (selector : Byte) (number : Half) (s : State) :
    Host.Outcome State Fault Refusal :=
  .next (serve p tag 0x22 (.getStep p tag selector number) (getStep selector number) s)

end Sys2Proof.Machine
end

