-- ==== Sys2Proof/Machine/LaneRequests.lean ====
section
/-! DEFINITION. The lane requests (Chapters 2 and 4): TAKE, YIELD, LOAD, GO, HALT, CLEAR_LANE, SET_RATE, SET_REPEAT,
SET_HOLD_LINE, DIRECT and GET_LANE. -/

namespace Sys2Proof.Machine

/-! ### TAKE and YIELD (R25 to R27) -/

/-- A lane's controller changes, with its CONTROLLER event (R27). -/
def setController (l : LaneId) (c : Option Console) (s : State) : State :=
  (s.updLane l (fun ln => { ln with controller := c })).emit (.controller l (s.lane l).controller c)

/-- States in which a console whose ENABLE is inactive may be displaced (R25). -/
def LaneState.displaceable : LaneState → Bool
  | .idle | .ready | .held | .stopping => true
  | .planning | .releasing | .running | .follow => false

/-- TAKE decided by the lane's controller (R25). -/
def takeLane (p : Console) (l : LaneId) (s : State) : State × Answer :=
  match (s.lane l).controller with
  | none => (setController l (some p) s, .ok [])
  | some c =>
    if c = p then (s, .ok [])
    else if s.enabled c = false ∧ (s.lane l).state.displaceable = true then (setController l (some p) s, .ok [])
    else (s, .refuse .owned)

def execTake (p : Console) (tag : Byte) (lane : Byte) (s : State) : Host.Outcome State Fault Refusal :=
  .next (serve p tag 0x10 (.take p tag lane) (onLane lane (takeLane p)) s)

/-- YIELD in IDLE, READY and HELD (R26). -/
def yieldLane (l : LaneId) (s : State) : State × Answer :=
  match (s.lane l).state with
  | .idle | .ready | .held => (setController l none s, .ok [])
  | .planning | .releasing | .running | .stopping | .follow => (s, .refuse .busy)

def execYield (p : Console) (tag : Byte) (lane : Byte) (s : State) : Host.Outcome State Fault Refusal :=
  .next (serve p tag 0x11 (.yield p tag lane) (onOwnLane p lane yieldLane) s)

/-! ### LOAD and CLEAR LANE (R59, R60) -/

/-- A step becomes the start of a new sequence (R59, R64). -/
def loadStep (l : LaneId) (r : StepRef) (s : State) : State :=
  changeState l .ready (s.updLane l (fun ln =>
    { ln with base := some r, current := some r, repeatRemaining := ln.repeatSetting, seqEnd := false,
              haltCause := .none }))

/-- A HELD lane gives back its axes and drops its plan record (R59, R60). -/
def letGo (l : LaneId) (s : State) : State :=
  release l (s.updLane l (fun ln => { ln with plan := none }))

/-- LOAD (R59): range, lane state, presence, then the load; in HELD the axes are released first. -/
def loadLane (step : Half) (l : LaneId) (s : State) : State × Answer :=
  match stepOf step with
  | none => (s, .refuse .badArg)
  | some n =>
    match (s.lane l).state with
    | .idle | .ready | .held =>
      if (s.cues.slots.get n).isNone then (s, .refuse .noStep)
      else (loadStep l (.numbered n) (if (s.lane l).state = .held then letGo l s else s), .ok [])
    | .planning | .releasing | .running | .stopping | .follow => (s, .refuse .wrongState)

def execLoad (p : Console) (tag : Byte) (lane : Byte) (step : Half) (s : State) : Host.Outcome State Fault Refusal :=
  .next (serve p tag 0x12 (.load p tag lane step) (onOwnLane p lane (loadLane step)) s)

/-- CLEAR LANE (R60). -/
def clearLane (l : LaneId) (s : State) : State × Answer :=
  match (s.lane l).state with
  | .idle => (recordHalt l .none s, .ok [])
  | .ready | .held | .follow =>
    (changeState l .idle ((letGo l s).updLane l (fun ln =>
      { ln with holdLatch := false, haltCause := .none, followDue := false, decrements := 0 })), .ok [])
  | .planning | .releasing | .running | .stopping => (s, .refuse .busy)

def execClearLane (p : Console) (tag : Byte) (lane : Byte) (s : State) : Host.Outcome State Fault Refusal :=
  .next (serve p tag 0x15 (.clearLane p tag lane) (onOwnLane p lane clearLane) s)

/-! ### GO, HALT and DIRECT (R61 to R64, R32) -/

/-- GO by the lane state (Table 4-2): a fresh start in READY, a resume in HELD, at once in FOLLOW, where a failed check
ends the wait (R63). -/
def goLane (p : Console) (l : LaneId) (s : State) : State × Answer :=
  match (s.lane l).state with
  | .ready =>
    match goChecks l (some p) s with
    | .ok s1 => (enterPlanning l false s1, .ok [])
    | .error r => (s, r.answer)
  | .held =>
    match goChecks l (some p) s with
    | .ok s1 => (enterPlanning l true s1, .ok [])
    | .error r => (s, r.answer)
  | .follow =>
    match goChecks l (some p) s with
    | .ok s1 => (enterPlanning l false s1, .ok [])
    | .error r => (endFollow l s, r.answer)
  | .idle | .planning | .releasing | .running | .stopping => (s, .refuse .wrongState)

def execGo (p : Console) (tag : Byte) (lane : Byte) (s : State) : Host.Outcome State Fault Refusal :=
  .next (serve p tag 0x13 (.go p tag lane) (onOwnLane p lane (goLane p)) s)

/-- HALT (R32): taken by the lane state; the reply carries the state as it then stands. -/
def haltRequest (l : LaneId) (s : State) : State × Answer :=
  let s1 := haltLane l .halt s
  (s1, .ok [(s1.lane l).state.code])

def execHalt (p : Console) (tag : Byte) (lane : Byte) (s : State) : Host.Outcome State Fault Refusal :=
  .next (serve p tag 0x14 (.halt p tag lane) (onLane lane haltRequest) s)

/-- The private direct step is written and loaded (R49, R64). -/
def writeDirect (l : LaneId) (st : Step) (s : State) : State :=
  loadStep l .direct { s with cues := { s.cues with privates := s.cues.privates.set l (some st) } }

/-- DIRECT (R64): move-data checks, lane state, the private step written and loaded, then the checks of GO. The reply
carries the number of caps clamped whether its GO passes or fails. For a failed GO, R175 has a refusal carry its code, axis
and lane alone: that R64 is followed there, and the count put behind them, is the model's choice (log entry 39). -/
def directLane (p : Console) (rs tn : Half) (ms : List RawMove) (l : LaneId) (s : State) : State × Answer :=
  match checkDirect rs tn ms with
  | none => (s, .refuse .badArg)
  | some st =>
    match (s.lane l).state with
    | .idle | .ready =>
      let s1 := writeDirect l st s
      match goChecks l (some p) s1 with
      | .ok s2 => (enterPlanning l false s2, .ok [byteOf (clampedCount ms)])
      | .error r => (s1, ⟨r.answer.code, r.answer.data ++ [byteOf (clampedCount ms)]⟩)
    | .planning | .releasing | .running | .stopping | .held | .follow => (s, .refuse .wrongState)

def execDirect (p : Console) (tag : Byte) (lane : Byte) (rs tn : Half) (moves : List RawMove) (s : State) :
    Host.Outcome State Fault Refusal :=
  .next (serve p tag 0x19 (.direct p tag lane rs tn moves) (onOwnLane p lane (directLane p rs tn moves)) s)

/-! ### Settings (R29 to R31) -/

/-- SET RATE: a value above 256 is stored as 256 (R29). -/
def setRate (rate : Half) (l : LaneId) (s : State) : State × Answer :=
  let stored := min rate.toNat Config.fullRate
  (s.updLane l (fun ln => { ln with requestedRate := stored }), .ok (be16 stored))

def execSetRate (p : Console) (tag : Byte) (lane : Byte) (rate : Half) (s : State) :
    Host.Outcome State Fault Refusal :=
  .next (serve p tag 0x16 (.setRate p tag lane rate) (onOwnLane p lane (setRate rate)) s)

/-- SET REPEAT writes the setting and the remaining (R30). -/
def setRepeat (count : Byte) (l : LaneId) (s : State) : State × Answer :=
  (s.updLane l (fun ln => { ln with repeatSetting := count.toNat, repeatRemaining := count.toNat }), .ok [])

def execSetRepeat (p : Console) (tag : Byte) (lane : Byte) (count : Byte) (s : State) :
    Host.Outcome State Fault Refusal :=
  .next (serve p tag 0x17 (.setRepeat p tag lane count) (onOwnLane p lane (setRepeat count)) s)

/-- The hold source a byte names: 0 none, 1..4 SH0..SH3 (Table 12-2). -/
def holdSourceOf (b : Byte) : Option (Option HoldLine) :=
  if b.toNat = 0 then some none
  else if h : b.toNat - 1 < 4 then some (some ⟨b.toNat - 1, h⟩) else none

/-- SET HOLD LINE leaves the hold latch as it is (R31). -/
def setHoldLine (source : Byte) (l : LaneId) (s : State) : State × Answer :=
  match holdSourceOf source with
  | none => (s, .refuse .badArg)
  | some src => (s.updLane l (fun ln => { ln with holdSource := src }), .ok [])

def execSetHoldLine (p : Console) (tag : Byte) (lane : Byte) (source : Byte) (s : State) :
    Host.Outcome State Fault Refusal :=
  .next (serve p tag 0x18 (.setHoldLine p tag lane source) (onOwnLane p lane (setHoldLine source)) s)

/-! ### GET LANE (R33) -/

/-- The profile time as the Motion Generator holds it, or frozen with the plan record (R33, R99). -/
def profileTime (s : State) (l : LaneId) (plan : PlanRecord) : Nat :=
  match s.context l with
  | some c => c.profileTime
  | none => plan.frozen

/-- The lane record as GET LANE reports it: the fields of Table 2-1 in their order, the plan record as R, T and the
profile time (R33, log entry 12). -/
def laneReport (s : State) (l : LaneId) : List Byte :=
  let ln := s.lane l
  [ln.state.code, consoleByte ln.controller] ++ optional 2 (ln.base.map StepRef.bytes) ++
    optional 2 (ln.current.map StepRef.bytes) ++ [byteOf ln.repeatSetting, byteOf ln.repeatRemaining] ++
    be16 ln.followCounter ++ optional 4 (ln.followKind.map FollowKind.bytes) ++
    [holdSourceByte ln.holdSource, flagByte ln.holdLatch] ++ be16 ln.requestedRate ++ be16 ln.effectiveRate ++
    byteOf ln.claimSet.length :: ln.claimSet.map (fun a => byteOf a.val) ++ [flagByte ln.resume] ++
    optional 10 (ln.plan.map (fun p => be16 p.ramp ++ be32 p.duration ++ be32 (profileTime s l p))) ++
    ln.haltCause.bytes ++ [flagByte ln.seqEnd] ++
    optional 8 (ln.lastCompleted.map (fun r =>
      r.step.bytes ++ be32 r.stamp.toNat ++ [flagByte r.resumed, flagByte r.clipped]))

/-- GET LANE (R33). -/
def getLane (l : LaneId) (s : State) : State × Answer := (s, .ok (laneReport s l))

def execGetLane (p : Console) (tag : Byte) (lane : Byte) (s : State) : Host.Outcome State Fault Refusal :=
  .next (serve p tag 0x1A (.getLane p tag lane) (onLane lane getLane) s)

end Sys2Proof.Machine
end

