-- ==== Sys2Proof/Machine/AxisTable.lean ====
section
/-! DEFINITION. The Axis Table (Chapter 1): PUT_AXIS, PUT_AXIS_REMOVE, GET_AXIS, LOCK_SET, CLEAR_FAULT, FAULT_REQUEST and
the station notices. -/

namespace Sys2Proof.Machine

/-! ### Configuration (R1, R4, R16, R17) -/

/-- A value lies in a range, inclusive. -/
def within (lo hi n : Nat) : Bool := decide (lo ≤ n) && decide (n ≤ hi)

/-- A configuration obeys R1 but for the station address of other axes. -/
def AxisConfig.valid (c : AxisConfig) : Bool :=
  within 1 63 c.station && within 0 40000 c.low && within 0 40000 c.high && decide (c.low < c.high) &&
    within 10 2000 c.vmax && within 10 400 c.rampFloor && within 5 500 c.followLimit &&
    within 0 4000 c.loadMin && within 0 4000 c.loadMax && decide (c.loadMin ≤ c.loadMax)

/-- The configuration a record's fields spell. -/
def rawConfig (r : RawConfig) : AxisConfig :=
  ⟨r.station.toNat, r.low.toNat, r.high.toNat, r.vmax.toNat, r.rampFloor.toNat, r.followLimit.toNat,
    r.loadMin.toNat, r.loadMax.toNat⟩

/-- Check 3 of R16: every field in its range, the present field among them. -/
def checkConfig (r : RawConfig) : Option AxisConfig :=
  if r.present = 1 ∧ (rawConfig r).valid = true then some (rawConfig r) else none

/-- Another present axis holds a station address (R16 check 4). -/
def addressTaken (s : State) (a : AxisId) (station : Nat) : Bool :=
  (List.finRange 48).any (fun b => decide (b ≠ a) &&
    match (s.axis b).config with
    | some c => decide (c.station = station)
    | none => false)

/-- The entry of an axis is replaced or discarded: a slot listening for its reply is orphaned (R154), and what the
discarded entry sent and nobody has taken is dropped with it (log entry 19). -/
def replaceEntry (a : AxisId) (e : Option StationEntry) (s : State) : State :=
  ({ s with link := { s.link with slot := s.link.slot.map (fun sl =>
      if sl.axis = a then { sl with orphan := true } else sl) } } : State).setStation a e |>.updMessages (fun m =>
    { m with
      replyChecks := m.replyChecks.filter (fun x => decide (x.axis ≠ a))
      markNotices := m.markNotices.filter (fun x => decide (x.axis ≠ a))
      stationNotices := m.stationNotices.filter (fun x => decide (x.axis ≠ a)) })

/-- A configuration written with a new station address: OFFLINE, live values absent, a new entry (R4, R152). -/
def installConfig (a : AxisId) (c : AxisConfig) (s : State) : State :=
  replaceEntry a (some (StationEntry.new c.station))
    (dropSetpoint a (s.updAxis a (fun ax =>
      { ax with config := some c, state := .offline, feedback := none, load := none, loadWarning := false,
                arriving := false })))

/-- The state changes of an accepted PUT AXIS with present = yes (R4). -/
def configureAxis (a : AxisId) (c : AxisConfig) (s : State) : State :=
  match (s.axis a).config with
  | some old =>
    if old.station = c.station then s.updAxis a (fun ax => { ax with config := some c }) else installConfig a c s
  | none => installConfig a c s

/-- A REST axis keeping its station would be left with its setpoint outside the new limits (R16 check 5). -/
def leavesSetpointOutside (ax : Axis) (c : AxisConfig) : Bool :=
  match ax.config, ax.setpoint with
  | some old, some v =>
    decide (ax.state = .rest) && decide (old.station = c.station) &&
      (decide (v < c.low * Config.unit) || decide (c.high * Config.unit < v))
  | _, _ => false

/-- The states in which PUT AXIS with present = yes finds the axis busy (R16 check 2). -/
def AxisState.refusesPut : AxisState → Bool
  | .moving | .stopping | .faulted _ => true
  | .unconfigured | .offline | .rest => false

/-- The axis becomes UNCONFIGURED with its lock kept; its pairs become inactive with their last gaps absent (R17,
R144). -/
def removeAxis (a : AxisId) (s : State) : State :=
  let s1 := replaceEntry a none
    (s.updAxis a (fun ax => { Axis.reset with lock := ax.lock, owner := ax.owner }))
  { s1 with pairs := s1.pairs.map (fun po => po.map (fun pr =>
      if pr.upper = a ∨ pr.lower = a then { pr with lastGap := none } else pr)) }

/-- PUT AXIS with present = no (R17). -/
def putAxisRemove (axis : Byte) (s : State) : State × Answer :=
  match axisOf axis with
  | none => (s, .refuse .badArg)
  | some a =>
    if s.saving || (s.axis a).owner.isSome || (s.axis a).state.travelling then (s, .refuse .busy)
    else (removeAxis a s, .ok [])

def execPutAxisRemove (p : Console) (tag : Byte) (axis : Byte) (s : State) : Host.Outcome State Fault Refusal :=
  .next (serve p tag 0x30 (.putAxisRemove p tag axis) (putAxisRemove axis) s)

/-- PUT AXIS with present = yes: the checks of R16 in order, then the write. A body whose present field is 0 is the
removal. -/
def putAxis (axis : Byte) (r : RawConfig) (s : State) : State × Answer :=
  if r.present = 0 then putAxisRemove axis s
  else
    match axisOf axis with
    | none => (s, .refuse .badArg)
    | some a =>
      if s.saving || (s.axis a).owner.isSome || (s.axis a).state.refusesPut then (s, .refuse .busy)
      else
        match checkConfig r with
        | none => (s, .refuse .badArg)
        | some c =>
          if addressTaken s a c.station || leavesSetpointOutside (s.axis a) c then (s, .refuse .badArg)
          else (configureAxis a c s, .ok [])

def execPutAxis (p : Console) (tag : Byte) (axis : Byte) (config : RawConfig) (s : State) :
    Host.Outcome State Fault Refusal :=
  .next (serve p tag 0x30 (.putAxis p tag axis config) (putAxis axis config) s)

/-! ### Reading and locking (R18, R15) -/

/-- The axis record as GET AXIS reports it (R18). That the station state, which an UNCONFIGURED axis does not have, is
carried as an optional item is the model's choice (log entry 12). -/
def axisReport (s : State) (a : AxisId) : List Byte :=
  let ax := s.axis a
  let cause := match ax.state with | .faulted c => some [faultCode c] | _ => none
  axisBytes ax.config ++ [ax.state.code, flagByte ax.lock, laneByte ax.owner] ++ optional 1 cause ++
    optional 4 (ax.setpoint.map be32) ++ optional 4 (ax.feedback.map be32) ++ optional 2 (ax.load.map be16) ++
    [flagByte ax.loadWarning] ++ optional 1 ((s.station a).map (fun e => [e.state.code])) ++
    optional 1 (((s.station a).bind (·.lastReply)).map (fun r => [r.flags]))

/-- GET AXIS (R18). -/
def getAxis (axis : Byte) (s : State) : State × Answer :=
  match axisOf axis with
  | none => (s, .refuse .badArg)
  | some a => (s, .ok (axisReport s a))

def execGetAxis (p : Console) (tag : Byte) (axis : Byte) (s : State) : Host.Outcome State Fault Refusal :=
  .next (serve p tag 0x31 (.getAxis p tag axis) (getAxis axis) s)

/-- The 48 lock flags as one set. -/
def lockFlags (s : State) : BitVec 48 :=
  BitVec.ofNat 48 ((List.finRange 48).foldl (fun n a => if (s.axis a).lock then n + 2 ^ a.val else n) 0)

/-- LOCK SET, as one change; the reply carries the flags as they then stand (R15). -/
def lockSet (value mask : BitVec 48) (s : State) : State × Answer :=
  let s1 := lockAxes value mask s
  (s1, .ok (axisSetBytes (lockFlags s1)))

def execLockSet (p : Console) (tag : Byte) (value mask : BitVec 48) (s : State) : Host.Outcome State Fault Refusal :=
  .next (serve p tag 0x32 (.lockSet p tag value mask) (lockSet value mask) s)

/-! ### Faults (R10, R19) -/

/-- The lane states in which a member's fault cannot be cleared (R19 check 2). -/
def LaneState.refusesClear : LaneState → Bool
  | .planning | .releasing | .running => true
  | .idle | .ready | .stopping | .held | .follow => false

/-- The owner of an axis is PLANNING, RELEASING or RUNNING (R19 check 2). -/
def ownerBusy (s : State) (a : AxisId) : Bool :=
  match (s.axis a).owner with
  | some l => (s.lane l).state.refusesClear
  | none => false

/-- The last good reply of an axis's station (R2). -/
def lastReply (s : State) (a : AxisId) : Option Reply := (s.station a).bind (·.lastReply)

/-- The FAULTED axis becomes REST, seeded from the feedback of the last good reply (R19). -/
def returnToRest (a : AxisId) (s : State) : State :=
  let s1 := setAxisState a .rest s
  match lastReply s a with
  | some r => seed a r.feedback s1
  | none => s1

/-- CLEAR FAULT's checks in order (R19). -/
def clearFault (axis : Byte) (s : State) : State × Answer :=
  match axisOf axis with
  | none => (s, .refuse .badArg)
  | some a =>
    match (s.axis a).state with
    | .faulted _ =>
      if ownerBusy s a then (s, .refuse .busy)
      else if s.online a = false then (s, (⟨.unavailable, some a, none⟩ : Refused).answer)
      else if (match lastReply s a with | some r => r.fault | none => false) then
        (s, (⟨.unavailable, some a, none⟩ : Refused).answer)
      else (returnToRest a s, .ok [])
    | .unconfigured | .offline | .rest | .moving | .stopping => (s, .refuse .wrongState)

def execClearFault (p : Console) (tag : Byte) (axis : Byte) (s : State) : Host.Outcome State Fault Refusal :=
  .next (serve p tag 0x33 (.clearFault p tag axis) (clearFault axis) s)

/-- FAULT_REQUEST (R10): the Axis Table takes a fault request sent to it. -/
def takeFaultRequest (a : AxisId) (cause : FaultCause) (s : State) : State :=
  if (a, cause) ∈ s.messages.faultRequests then
    applyFault a cause (s.updMessages (fun m => { m with faultRequests := m.faultRequests.erase (a, cause) }))
  else s

def execFaultRequest (a : AxisId) (cause : FaultCause) (s : State) : Host.Outcome State Fault Refusal :=
  .next (takeFaultRequest a cause s)

/-! ### Station notices (R5, R6, R166) -/

/-- The oldest station notice for an axis. -/
def stationNotice (s : State) (a : AxisId) : Option StationNotice :=
  s.messages.stationNotices.find? (fun n => decide (n.axis = a))

/-- A station notice is taken off. -/
def dropNotice (n : StationNotice) (s : State) : State :=
  s.updMessages (fun m => { m with stationNotices := m.stationNotices.erase n })

/-- The Supervisor has a reply of this axis still to take, or its fault request for the axis waits at the Axis Table: the
axis is still OFFLINE for both, and a FAULT flag in the reply that completes a joining is discarded (R137, R165 step 3). -/
def checkWaiting (s : State) (a : AxisId) : Bool :=
  s.messages.replyChecks.any (fun c => decide (c.axis = a)) ||
    s.messages.faultRequests.any (fun r => decide (r.1 = a))

/-- The station reached ONLINE: an OFFLINE axis becomes REST, seeded; any other keeps its state (R5). -/
def stationOnline (a : AxisId) (f : Nat) (s : State) : State :=
  if (s.axis a).state = .offline then seed a f (setAxisState a .rest s) else s

/-- STATION_ONLINE_NOTICE, after the Supervisor has taken the reply that completed the joining and the Axis Table the
fault request it may have sent (R165, log entry 18). -/
def takeOnlineNotice (a : AxisId) (s : State) : State :=
  match stationNotice s a with
  | some n =>
    match n.online with
    | some f => if checkWaiting s a then s else stationOnline a f (dropNotice n s)
    | none => s
  | none => s

def execStationOnlineNotice (a : AxisId) (s : State) : Host.Outcome State Fault Refusal :=
  .next (takeOnlineNotice a s)

/-- The station left ONLINE: REST becomes OFFLINE without a setpoint, MOVING and STOPPING are faulted LINK_LOST, any
other state stays (R6). -/
def stationLost (a : AxisId) (s : State) : State :=
  match (s.axis a).state with
  | .rest => dropSetpoint a (setAxisState a .offline s)
  | .moving | .stopping => applyFault a .linkLost s
  | .unconfigured | .offline | .faulted _ => s

/-- STATION_LOST_NOTICE (R166). -/
def takeLostNotice (a : AxisId) (s : State) : State :=
  match stationNotice s a with
  | some n =>
    match n.online with
    | none => stationLost a (dropNotice n s)
    | some _ => s
  | none => s

def execStationLostNotice (a : AxisId) (s : State) : Host.Outcome State Fault Refusal :=
  .next (takeLostNotice a s)

end Sys2Proof.Machine
end

