-- ==== Sys2Proof/Machine/Supervisor.lean ====
section
/-! DEFINITION. The Supervisor (Chapter 8): the checks on each good reply and the clash-pair table; SUPERVISOR_REPLY_CHECK,
PUT_PAIR and DROP_PAIR. -/

namespace Sys2Proof.Machine

/-! ### Checks on each reply (R136 to R141) -/

/-- REST, MOVING or STOPPING: the states in which the following error is checked (R139). -/
def AxisState.followed : AxisState → Bool
  | .rest | .moving | .stopping => true
  | .unconfigured | .offline | .faulted _ => false

/-- The magnitude of the difference of two positions. -/
def apart (x y : Nat) : Nat := if x ≤ y then y - x else x - y

/-- Check 2: a FOLLOW reply without TRACKING while the mark is set (R138). -/
def losesTracking (s : State) (c : ReplyCheck) : Bool :=
  (s.axis c.axis).state.travelling && decide (c.mode = .follow) && !c.reply.tracking && trackingMark s c.axis

/-- Check 3: the feedback is further from the setpoint sent than the limit (R139). -/
def followsBadly (s : State) (c : ReplyCheck) (cfg : AxisConfig) : Bool :=
  (s.axis c.axis).state.followed && !s.latch && decide (c.mode ≠ .identify) &&
    decide (cfg.followLimit * Config.unit < apart c.reply.feedback c.setpoint)

/-- The first check that finds a fault (Table 8-1). -/
def replyFault (s : State) (c : ReplyCheck) : Option FaultCause :=
  if c.reply.fault then some .driveFault
  else if losesTracking s c then some .lostTracking
  else
    match (s.axis c.axis).config with
    | none => none
    | some cfg =>
      if followsBadly s c cfg then some .following
      else if (s.axis c.axis).state.travelling && !s.latch then
        (if cfg.loadMax < c.reply.load then some .loadHigh
        else if c.reply.load < cfg.loadMin then some .loadLow
        else none)
      else none

/-- The load-warning check of a REST axis (R141). -/
def warnLoad (c : ReplyCheck) (s : State) : State :=
  let ax := s.axis c.axis
  match ax.config with
  | none => s
  | some cfg =>
    if ax.state = .rest ∧ s.latch = false then
      if cfg.loadMax < c.reply.load ∨ c.reply.load < cfg.loadMin then
        let s1 := s.updAxis c.axis (fun x => { x with loadWarning := true })
        if ax.loadWarning then s1
        else s1.emit (.loadWarning c.axis c.reply.load (decide (cfg.loadMax < c.reply.load)) ax.owner)
      else s.updAxis c.axis (fun x => { x with loadWarning := false })
    else s

/-- A good reply checked on the axis as it stands: at most one fault request, and with none the load warning (R136). -/
def checkReply (c : ReplyCheck) (s : State) : State :=
  match replyFault s c with
  | some cause => s.updMessages (fun m => { m with faultRequests := m.faultRequests ++ [(c.axis, cause)] })
  | none => warnLoad c s

/-- SUPERVISOR_REPLY_CHECK (R136): the Supervisor takes the oldest reply handed to it for an axis. -/
def takeReplyCheck (a : AxisId) (s : State) : State :=
  match s.messages.replyChecks.find? (fun c => decide (c.axis = a)) with
  | none => s
  | some c => checkReply c (s.updMessages (fun m => { m with replyChecks := m.replyChecks.erase c }))

def execSupervisorReplyCheck (a : AxisId) (s : State) : Host.Outcome State Fault Refusal :=
  .next (takeReplyCheck a s)

/-! ### The clash-pair table (R144 to R146) -/

/-- A slot written or emptied. -/
def setPair (n : PairId) (po : Option ClashPair) (s : State) : State := { s with pairs := s.pairs.set n po }

/-- An axis of the entry a slot holds is owned (R145, R146). -/
def slotOwned (s : State) (n : PairId) : Bool :=
  match s.pairs.get n with
  | some pr => (s.axis pr.upper).owner.isSome || (s.axis pr.lower).owner.isSome
  | none => false

/-- PUT PAIR's checks in order and its change (R145). That the stored entry in the reply is the pair number with the fields
of the request, without the defined field and the last gap, is the model's choice (log entry 12). -/
def putPair (pair upper lower : Byte) (gap : Half) (s : State) : State × Answer :=
  match pairOf pair with
  | none => (s, .refuse .badArg)
  | some n =>
    if s.saving then (s, .refuse .busy)
    else
      match axisOf upper, axisOf lower with
      | some u, some l =>
        if u = l ∨ 5000 < gap.toNat then (s, .refuse .badArg)
        else if (s.axis u).owner.isSome || (s.axis l).owner.isSome || slotOwned s n then (s, .refuse .busy)
        else
          let pr : ClashPair := ⟨u, l, gap.toNat, none⟩
          (setPair n (some pr) s, .ok ([pair, upper, lower] ++ be16 gap.toNat ++ [flagByte (pairActive s pr)]))
      | _, _ => (s, .refuse .badArg)

def execPutPair (p : Console) (tag : Byte) (pair upper lower : Byte) (gap : Half) (s : State) :
    Host.Outcome State Fault Refusal :=
  .next (serve p tag 0x34 (.putPair p tag pair upper lower gap) (putPair pair upper lower gap) s)

/-- DROP PAIR's checks in order and its change (R146). -/
def dropPair (pair : Byte) (s : State) : State × Answer :=
  match pairOf pair with
  | none => (s, .refuse .badArg)
  | some n => if s.saving || slotOwned s n then (s, .refuse .busy) else (setPair n none s, .ok [])

def execDropPair (p : Console) (tag : Byte) (pair : Byte) (s : State) : Host.Outcome State Fault Refusal :=
  .next (serve p tag 0x35 (.dropPair p tag pair) (dropPair pair) s)

end Sys2Proof.Machine
end

