-- ==== Sys2Proof/Machine/Stops.lean ====
section
/-! DEFINITION. Stop Logic (Chapter 7): input qualification and the emergency latch; RAW_LEVEL_CHANGE, QUALIFIED_CHANGE,
E_STOP and CLEAR_E_STOP. -/

namespace Sys2Proof.Machine

/-- A line's record replaced. -/
def setLine (line : Line) (ls : LineState) (s : State) : State :=
  { s with lines := s.lines.set (lineIndex line) ls }

/-- RAW_LEVEL_CHANGE (R121): the timer runs exactly while the raw level differs from the qualified level. -/
def rawLevel (line : Line) (high : Bool) (s : State) : State :=
  let ls := s.lines.get (lineIndex line)
  setLine line ⟨high, ls.qualified, decide (high ≠ ls.qualified)⟩ s

def execRawLevelChange (line : Line) (high : Bool) (s : State) : Host.Outcome State Fault Refusal :=
  .next (rawLevel line high s)

/-- What a qualified change delivers (Table 7-1). -/
def deliverChange (line : Line) (high : Bool) (s : State) : State :=
  match line, high with
  | .stopn, false => setLatch none s
  | .enable c, false => s.deliverAll (.enableLoss c)
  | .hold n, true => s.deliverAll (.hold n)
  | .stopn, true | .enable _, true | .hold _, false => s

/-- QUALIFIED_CHANGE (R121, R122): a running timer reaches 10 ms, the qualified level takes the raw level, and the
change is delivered. -/
def qualify (line : Line) (s : State) : State :=
  let ls := s.lines.get (lineIndex line)
  if ls.timing then deliverChange line ls.raw (setLine line ⟨ls.raw, ls.raw, false⟩ s) else s

def execQualifiedChange (line : Line) (s : State) : Host.Outcome State Fault Refusal :=
  .next (qualify line s)

/-- E-STOP (R124): the latch set as a STOPN assertion would, reported as set. -/
def eStop (p : Console) (s : State) : State × Answer := (setLatch (some p) s, .ok [1])

def execEStop (p : Console) (tag : Byte) (s : State) : Host.Outcome State Fault Refusal :=
  .next (serve p tag 0x53 (.eStop p tag) (eStop p) s)

/-- CLEAR E-STOP (R125). -/
def clearEStop (p : Console) (s : State) : State × Answer :=
  if s.qualified .stopn = false then (s, .refuse .stopActive)
  else if s.latch then (({ s with latch := false } : State).emit (.estopCleared p), .ok [])
  else (s, .ok [])

def execClearEStop (p : Console) (tag : Byte) (s : State) : Host.Outcome State Fault Refusal :=
  .next (serve p tag 0x54 (.clearEStop p tag) (clearEStop p) s)

end Sys2Proof.Machine
end

