-- ==== Sys2Proof/Machine/DriveLink.lean ====
section
/-! DEFINITION. The Drive Link (Chapter 9): the round and its SETPOINT frames, the outcome of a slot, error counters,
station states and the steps of a good reply; DRIVE_ROUND, STATUS_FRAME, REPLY_WINDOW_EXPIRY and GET_STATION. -/

namespace Sys2Proof.Machine

/-! ### The round (R153 to R155) -/

/-- The drive mode of a frame built for an axis now (Table 6-5). -/
def frameMode (s : State) (a : AxisId) : DriveMode :=
  if s.online a = false ∨ (s.axis a).state = .offline then .identify
  else if s.latch then .brake
  else
    match (s.axis a).state with
    | .faulted _ => .brake
    | .moving | .stopping => .follow
    | .rest | .unconfigured | .offline => .hold

/-- The setpoint field of a frame: zero for IDENTIFY, else the axis setpoint in force (R115, R155). -/
def frameSetpoint (s : State) (a : AxisId) (mode : DriveMode) : Nat :=
  match mode with
  | .identify => 0
  | .follow | .hold | .brake => (s.axis a).setpoint.getD 0

/-- The sequence of the next frame: 0 for the first of an entry, else one more, modulo 16 (R155). -/
def nextSequence (e : StationEntry) : BitVec 4 :=
  match e.frame with
  | none => 0
  | some _ => e.sequence + 1

/-- A SETPOINT frame is built and sent, the entry keeps what it carried, and the listening slot opens (R155, R156). -/
def sendFrame (a : AxisId) (e : StationEntry) (s : State) : State :=
  let mode := frameMode s a
  let setpoint := frameSetpoint s a mode
  let sequence := nextSequence e
  { (s.setStation a (some { e with sequence := sequence, frame := some ⟨setpoint, mode, sequence, true⟩ })) with
    link := ⟨some (a.val + 1), some ⟨a, false⟩, setpointFrame e.address mode sequence setpoint⟩ }

/-- The next present axis the round comes to from a number (R153). -/
def nextPresent (s : State) (n : Nat) : Option AxisId :=
  (List.finRange 48).find? (fun a => decide (n ≤ a.val) && s.present a)

/-- DRIVE_ROUND (R153): with no slot open, the round goes on to the next present axis and sends its frame, or ends. -/
def driveRound (s : State) : State :=
  match s.link.round, s.link.slot with
  | some n, none =>
    match nextPresent s n with
    | none => { s with link := { s.link with round := none } }
    | some a =>
      match s.station a with
      | none => { s with link := { s.link with round := some (a.val + 1) } }
      | some e => sendFrame a e s
  | _, _ => s

def execDriveRound (s : State) : Host.Outcome State Fault Refusal :=
  .next (driveRound s)

/-! ### Outcomes and the entry (R157 to R163) -/

/-- The outcome of a slot (Table 9-2). -/
inductive ReplyOutcome where
  | good (r : Reply)
  | badCrc
  | noReply
  | stale
  deriving DecidableEq, Repr

/-- The outcome of a reply that began in the window (Table 9-2, R196). -/
def judgeReply (e : StationEntry) (bytes : List Byte) : ReplyOutcome :=
  match readStatus (bytes.take Config.statusLength) with
  | none => .badCrc
  | some f =>
    match e.frame with
    | none => .stale
    | some fr => if f.address = e.address ∧ f.echo = fr.sequence.toNat then .good f.reply else .stale

/-- The latency of a reply that began in the window, and the highest (R158). -/
def noteLatency (latency : Nat) (e : StationEntry) : StationEntry :=
  { e with lastLatency := latency, peakLatency := max e.peakLatency latency }

/-- The counter of a failed outcome (R159). -/
def countOutcome (o : ReplyOutcome) (e : StationEntry) : StationEntry :=
  match o with
  | .good _ => e
  | .badCrc => { e with crcErrors := bump e.crcErrors }
  | .noReply => { e with noReplies := bump e.noReplies }
  | .stale => { e with stales := bump e.stales }

/-- A GOOD reply by the entry's state (R160 to R163). -/
def takeGood (e : StationEntry) : StationEntry :=
  match e.state with
  | .offline | .lost => { e with state := .joining, joining := 1 }
  | .joining =>
    if Config.joinCount ≤ e.joining + 1 then
      { e with state := .online, joining := 0, badRun := 0, outageRecord := e.outage.getD e.outageRecord,
               outage := none }
    else { e with joining := e.joining + 1 }
  | .online => { e with badRun := 0 }

/-- A failed outcome by the entry's state, counted in JOINING and ONLINE alone (R159 to R163). -/
def takeFailure (o : ReplyOutcome) (e : StationEntry) : StationEntry :=
  match e.state with
  | .offline | .lost => e
  | .joining => { (countOutcome o e) with state := .offline, joining := 0 }
  | .online =>
    if Config.lossRun ≤ e.badRun + 1 then
      { (countOutcome o e) with state := .lost, badRun := 0, drops := bump e.drops, outage := some 0 }
    else { (countOutcome o e) with badRun := e.badRun + 1 }

/-- An outcome taken into an entry (R160 to R163, R165 step 1). -/
def takeOutcome (o : ReplyOutcome) (e : StationEntry) : StationEntry :=
  match o with
  | .good r => { (takeGood e) with lastReply := some r }
  | .badCrc | .noReply | .stale => takeFailure o e

/-- The count a STATION_STATE event carries: the outage record at ONLINE, the drop counter at LOST (R164). -/
def stationCount (e : StationEntry) : Nat :=
  match e.state with
  | .online => e.outageRecord
  | .lost => e.drops
  | .offline | .joining => 0

/-- The Drive Link tells the Axis Table that a station reached or left ONLINE (R166). -/
def notify (n : StationNotice) (s : State) : State :=
  s.updMessages (fun m => { m with stationNotices := m.stationNotices ++ [n] })

/-- The entry after an outcome is stored, with the STATION_STATE event of a change of state (R164) and, at a loss, the
notice to the Axis Table (R162). -/
def storeEntry (a : AxisId) (before after : StationEntry) (s : State) : State :=
  let s1 := s.setStation a (some after)
  if before.state = after.state then s1
  else
    let s2 := s1.emit (.stationState after.address a before.state after.state (stationCount after))
    if after.state = .lost then notify ⟨a, none⟩ s2 else s2

/-! ### A good reply and the axis (R165) -/

/-- Step 2: feedback and load into the axis record, in every state but UNCONFIGURED (R13). -/
def copyReply (a : AxisId) (r : Reply) (s : State) : State :=
  s.updAxis a (fun ax =>
    if ax.state = .unconfigured then ax else { ax with feedback := some r.feedback, load := some r.load })

/-- Step 3: the reply and the frame record to the Supervisor (R136). -/
def handToSupervisor (a : AxisId) (r : Reply) (fr : FrameRecord) (s : State) : State :=
  s.updMessages (fun m => { m with replyChecks := m.replyChecks ++ [⟨a, r, fr.setpoint, fr.mode⟩] })

/-- Step 5: a REST axis is seeded while the emergency latch is set (R129). -/
def seedUnderLatch (a : AxisId) (f : Nat) (s : State) : State :=
  if s.latch = true ∧ (s.axis a).state = .rest then seed a f s else s

/-- Step 6: the reply and the frame's mode to the Motion Generator, for a moving member (R102). -/
def handToMotion (a : AxisId) (r : Reply) (fr : FrameRecord) (s : State) : State :=
  if movingMember s a then
    s.updMessages (fun m => { m with markNotices := m.markNotices ++ [⟨a, r.tracking, fr.mode, fr.sinceMoving⟩] })
  else s

/-- Steps 2 to 6 of a good reply, in order (R165). -/
def handOn (a : AxisId) (r : Reply) (fr : FrameRecord) (becameOnline : Bool) (s : State) : State :=
  let s1 := handToSupervisor a r fr (copyReply a r s)
  let s2 := if becameOnline then notify ⟨a, some r.feedback⟩ s1 else s1
  handToMotion a r fr (seedUnderLatch a r.feedback s2)

/-- An outcome taken for the entry of an axis (R157 to R165). -/
def takeSlot (a : AxisId) (e : StationEntry) (o : ReplyOutcome) (s : State) : State :=
  let after := takeOutcome o e
  let s1 := storeEntry a e after s
  match o, e.frame with
  | .good r, some fr => handOn a r fr (decide (e.state ≠ .online ∧ after.state = .online)) s1
  | _, _ => s1

/-- The slot ends. -/
def closeSlot (s : State) : State := { s with link := { s.link with slot := none } }

/-- The entry whose reply the open slot listens for: none when it was discarded meanwhile (R154). -/
def slotEntry (s : State) (sl : Slot) : Option StationEntry :=
  if sl.orphan then none else s.station sl.axis

/-- STATUS_FRAME (R157): a reply that begins in the window ends the slot and is taken. Bytes that begin later, or with no
slot open, form no reply (R156). -/
def statusFrame (latency : Nat) (bytes : List Byte) (s : State) : State :=
  match s.link.slot with
  | none => s
  | some sl =>
    if Config.replyWindow < latency ∨ bytes = [] then s
    else
      match slotEntry s sl with
      | none => closeSlot s
      | some e => takeSlot sl.axis (noteLatency latency e) (judgeReply e bytes) (closeSlot s)

def execStatusFrame (latency : Nat) (bytes : List Byte) (s : State) : Host.Outcome State Fault Refusal :=
  .next (statusFrame latency bytes s)

/-- REPLY_WINDOW_EXPIRY (R156): no reply began, and the slot ends with NO_REPLY. -/
def windowExpiry (s : State) : State :=
  match s.link.slot with
  | none => s
  | some sl =>
    match slotEntry s sl with
    | none => closeSlot s
    | some e => takeSlot sl.axis e .noReply (closeSlot s)

def execReplyWindowExpiry (s : State) : Host.Outcome State Fault Refusal :=
  .next (windowExpiry s)

/-! ### GET STATION (R167) -/

/-- A counter with its SATURATED flag. -/
def counterBytes (n : Nat) : List Byte := be16 n ++ [flagByte (saturated n)]

/-- The entry as GET STATION reports it, in the order R167 lists it; that the frame record's mode is sent by the mode codes
of Table 12-5, since Table 12-3a lists no drive mode, is the model's choice (log entry 12). -/
def stationReport (e : StationEntry) : List Byte :=
  [byteOf e.address, e.state.code, byteOf e.joining, byteOf e.badRun, byteOf e.sequence.toNat] ++
    optional 6 (e.frame.map (fun f => be32 f.setpoint ++ [f.mode.code, byteOf f.sequence.toNat])) ++
    counterBytes e.crcErrors ++ counterBytes e.noReplies ++ counterBytes e.stales ++ counterBytes e.drops ++
    be16 e.lastLatency ++ be16 e.peakLatency ++ be16 e.outageRecord ++ optional 2 (e.outage.map be16) ++
    optional 7 (e.lastReply.map (fun r => r.flags :: be32 r.feedback ++ be16 r.load))

/-- The clear option (R167). -/
def clearCounters (e : StationEntry) : StationEntry :=
  { e with crcErrors := 0, noReplies := 0, stales := 0, drops := 0, peakLatency := 0 }

/-- GET STATION: a clear option other than 0 or 1 is out of range (R193); that it is refused before an axis without an entry
is the model's choice (log entry 31). -/
def getStation (axis clear : Byte) (s : State) : State × Answer :=
  match axisOf axis with
  | none => (s, .refuse .badArg)
  | some a =>
    if 1 < clear.toNat then (s, .refuse .badArg)
    else
      match s.station a with
      | none => (s, (⟨.unavailable, some a, none⟩ : Refused).answer)
      | some e =>
        (if clear = 1 then s.setStation a (some (clearCounters e)) else s, .ok (stationReport e))

def execGetStation (p : Console) (tag : Byte) (axis clear : Byte) (s : State) : Host.Outcome State Fault Refusal :=
  .next (serve p tag 0x40 (.getStation p tag axis clear) (getStation axis clear) s)

end Sys2Proof.Machine
end

