-- ==== Sys2Proof/Machine/Ports.lean ====
section
/-! DEFINITION. The Console Ports (Chapter 10): the receivers, judging a complete frame, sending replies, offering events,
and the port's own requests; BYTE_RECEIVED, FRAME_TIMEOUT, CONSOLE_FRAME, REPLY_SENT, EVENT_POSTED, POLL, FETCH,
SET_FILTER and MASTER_CLEAR. -/

namespace Sys2Proof.Machine

/-! ### Receiving (R170) -/

/-- The frame being assembled is discarded and counted; the receiver goes back to HUNT. -/
def discardFrame (pt : Port) : Port :=
  { pt with receiver := .hunt, frameErrors := bump pt.frameErrors }

/-- HUNT: a SYNC byte starts a frame; anything else is dropped uncounted. -/
def huntByte (b : Byte) (fault : Bool) (pt : Port) : Port :=
  if fault = false ∧ b = 0xC5 then { pt with receiver := .header [] } else pt

/-- HEADER: LEN, then KIND, then TAG. -/
def headerByte (got : List Byte) (b : Byte) (pt : Port) : Port :=
  match got with
  | [] => if Config.bodyMax < b.toNat then discardFrame pt else { pt with receiver := .header [b] }
  | [len] => { pt with receiver := .header [len, b] }
  | len :: kind :: _ =>
    { pt with receiver := if len = 0 then .check len kind b [] [] else .body len kind b [] }

/-- BODY: LEN bytes. -/
def bodyByte (len kind tag : Byte) (got : List Byte) (b : Byte) (pt : Port) : Port :=
  { pt with receiver :=
      if len.toNat ≤ got.length + 1 then .check len kind tag (got ++ [b]) [] else .body len kind tag (got ++ [b]) }

/-- CHECK: the two CRC bytes, after which the frame is complete and waits to be judged. -/
def checkByte (len kind tag : Byte) (body : List Byte) (got : List Byte) (b : Byte) (pt : Port) : Port :=
  match got with
  | [] => { pt with receiver := .check len kind tag body [b] }
  | hi :: _ => { pt with receiver := .hunt, complete := pt.complete ++ [⟨len, kind, tag, body, hi, b⟩] }

/-- A byte at a port, by its receiver state; outside HUNT a framing fault discards the frame (R170). -/
def receiveByte (b : Byte) (fault : Bool) (pt : Port) : Port :=
  match pt.receiver with
  | .hunt => huntByte b fault pt
  | .header got => if fault then discardFrame pt else headerByte got b pt
  | .body len kind tag got => if fault then discardFrame pt else bodyByte len kind tag got b pt
  | .check len kind tag body got => if fault then discardFrame pt else checkByte len kind tag body got b pt

/-- BYTE_RECEIVED (R170). -/
def execByteReceived (p : Console) (byte : Byte) (framingFault : Bool) (s : State) :
    Host.Outcome State Fault Refusal :=
  .next (s.updPort p (receiveByte byte framingFault))

/-- The time between two bytes of a frame has passed (R170); in HUNT there is no frame to discard. -/
def timeoutFrame (pt : Port) : Port :=
  match pt.receiver with
  | .hunt => pt
  | .header _ | .body _ _ _ _ | .check _ _ _ _ _ => discardFrame pt

/-- FRAME_TIMEOUT (R170). -/
def execFrameTimeout (p : Console) (s : State) : Host.Outcome State Fault Refusal :=
  .next (s.updPort p timeoutFrame)

/-! ### Judging, sending, offering (R171 to R174, R178) -/

/-- What admission does with a well-formed frame (R172); a dispatched request becomes the request in progress and waits
for its owning block (R173). -/
def admitFrame (p : Console) (f : ConsoleFrame) (s : State) : State :=
  match admissionOf s p (parseRequest p f.kind f.tag f.body) with
  | .overrun => countFrameError p s
  | .answer code => queueReply p ⟨f.kind, f.tag, code, []⟩ s
  | .dispatch i => s.updPort p (fun pt => { pt with inProgress := some i })

/-- The oldest complete frame of a port is judged by its CRC (R171). -/
def judgeFrame (p : Console) (s : State) : State :=
  match (s.port p).complete with
  | [] => s
  | f :: rest =>
    let s1 := s.updPort p (fun pt => { pt with complete := rest })
    if f.checks then admitFrame p f s1 else countFrameError p s1

/-- CONSOLE_FRAME (R171). -/
def execConsoleFrame (p : Console) (s : State) : Host.Outcome State Fault Refusal :=
  .next (judgeFrame p s)

/-- The oldest reply has been sent and leaves the queue (R174). -/
def sendReply (pt : Port) : Port :=
  match pt.transmit with
  | [] => pt
  | r :: rest => { pt with transmit := rest, sent := r.frame }

/-- REPLY_SENT (R174). -/
def execReplySent (p : Console) (s : State) : Host.Outcome State Fault Refusal :=
  .next (s.updPort p sendReply)

/-- EVENT_POSTED (R178): the oldest posted event is offered to the ports. -/
def execEventPosted (s : State) : Host.Outcome State Fault Refusal :=
  .next (offerOldest s)

/-! ### The port's own requests (R180 to R182) -/

/-- The snapshot POLL reports, in the order R182 lists it; that a qualified level is sent as 1 for high and 0 for low is the
model's choice (log entry 12). -/
def pollReport (s : State) (p : Console) : List Byte :=
  let pt := s.port p
  [flagByte s.latch, flagByte (s.qualified .stopn), flagByte (s.enabled 0), flagByte (s.enabled 1),
    flagByte (s.enabled 2)] ++
    (s.lanes.cells.map (fun ln => [ln.state.code, consoleByte ln.controller])).flatten ++ be32 s.period.toNat ++
    [byteOf pt.events.length, flagByte pt.overflow, flagByte pt.pending1, flagByte pt.pending2,
      flagByte pt.pending3] ++
    be16 pt.frameErrors ++ [s.loader.state.code, flagByte s.saving]

/-- The overflow flag and the pending-class flags are cleared (R182). -/
def clearReports (pt : Port) : Port :=
  { pt with overflow := false, pending1 := false, pending2 := false, pending3 := false }

/-- POLL (R182). -/
def poll (p : Console) (s : State) : State × Answer :=
  (s.updPort p clearReports, .ok (pollReport s p))

def execPoll (p : Console) (tag : Byte) (s : State) : Host.Outcome State Fault Refusal :=
  .next (serve p tag 0x50 (.poll p tag) (poll p) s)

/-- FETCH's reply: the number of events taken, the events, the number left (R180). That the number taken is also the count
byte that R193 puts before a list of varying length, one byte for both, is the model's choice (log entry 12). -/
def fetchReport (events : List EventRecord) : List Byte :=
  byteOf (events.take Config.fetchSize).length ::
    ((events.take Config.fetchSize).map EventRecord.bytes).flatten ++ [byteOf (events.drop Config.fetchSize).length]

/-- FETCH (R180): up to 8 events are removed from the head of the port's own queue. -/
def fetch (p : Console) (s : State) : State × Answer :=
  (s.updPort p (fun pt => { pt with events := pt.events.drop Config.fetchSize }), .ok (fetchReport (s.port p).events))

def execFetch (p : Console) (tag : Byte) (s : State) : Host.Outcome State Fault Refusal :=
  .next (serve p tag 0x51 (.fetch p tag) (fetch p) s)

/-- SET FILTER (R181). -/
def setFilter (p : Console) (filter : Byte) (s : State) : State × Answer :=
  if 3 < filter.toNat then (s, .refuse .badArg)
  else (s.updPort p (fun pt => { pt with filter := filter.toNat }), .ok [filter])

def execSetFilter (p : Console) (tag : Byte) (filter : Byte) (s : State) : Host.Outcome State Fault Refusal :=
  .next (serve p tag 0x52 (.setFilter p tag filter) (setFilter p filter) s)

/-! ### MASTER CLEAR (R183) -/

/-- The lane states that refuse a MASTER CLEAR. -/
def LaneState.refusesMaster : LaneState → Bool
  | .planning | .releasing | .running | .stopping => true
  | .idle | .ready | .held | .follow => false

/-- A lane in the values of Table 2-4 (R38); what has been delivered to it still waits (log entry 23). -/
def clearedLane (ln : Lane) : Lane := { Lane.reset with inbox := ln.inbox }

/-- A port's event queue emptied, with its overflow and pending-class flags clear (Table 10-5). -/
def clearedPort (pt : Port) : Port := { (clearReports pt) with events := [] }

/-- The one change of an accepted MASTER CLEAR across the blocks (R21, R38, R54, R151, R183). The events posted and not yet
offered are emptied with the queues (R183). The withdrawals outstanding are taken before it, so that it finds the plan queue
empty and leaves a plan in progress that is withdrawn, as R82 says (log entry 14). -/
def masterCleared (s : State) : State :=
  { s with
    lanes := s.lanes.map clearedLane
    axes := s.axes.map (fun ax => { ax with lock := true, owner := none })
    cues := CueStore.reset
    pairs := s.pairs.map (fun po => po.map (fun pr => { pr with lastGap := none }))
    ports := s.ports.map clearedPort
    planner := takeWithdrawals s.planner
    messages := { s.messages with posted := [] } }

/-- MASTER CLEAR (R183). -/
def masterClear (s : State) : State × Answer :=
  if s.saving || s.lanes.cells.any (fun ln => ln.state.refusesMaster) then (s, .refuse .busy)
  else (masterCleared s, .ok [])

def execMasterClear (p : Console) (tag : Byte) (s : State) : Host.Outcome State Fault Refusal :=
  .next (serve p tag 0x55 (.masterClear p tag) masterClear s)

end Sys2Proof.Machine
end

