-- ==== Sys2Proof/Machine/Image.lean ====
section
/-! DEFINITION. The Image Loader (Chapter 11): pin reset, the tests of the load, the save and its read-back; PIN_RESET,
IMAGE_LOAD_COMPLETION, SAVE_COMPLETION and SAVE_IMAGE. -/

namespace Sys2Proof.Machine

/-! ### Saving (R189, R190) -/

/-- The byte writes of a save in their order: the marker as 0x0000, bytes 2 to 934, then the marker (R190, R197). -/
def saveWrites (image : List Byte) : List (Nat × Byte) :=
  [(0, 0), (1, 0)] ++ ((image.drop 2).zipIdx 2).map (fun x => (x.2, x.1)) ++ [(0, 0x4C), (1, 0x43)]

/-- SAVE IMAGE: the flag is set and the image formed from one snapshot of the configuration (R189). -/
def saveImage (p : Console) (s : State) : State × Answer :=
  if s.saving then (s, .refuse .busy)
  else ({ s with loader := { s.loader with save := some ⟨p, formImage s⟩ } }, .ok [])

def execSaveImage (p : Console) (tag : Byte) (s : State) : Host.Outcome State Fault Refusal :=
  .next (serve p tag 0x56 (.saveImage p tag) (saveImage p) s)

/-- The part of the image a byte lies in (R190, Tables 12-6a, 12-7, 12-8). -/
def imagePart (i : Nat) : ImagePart :=
  if i < 5 then .header
  else if i < 773 then .axis ((i - 5) / 16)
  else if i < 933 then .pair ((i - 773) / 5)
  else .crc

/-- The place of the first byte that differs between the image formed and the image read back. -/
def firstDifference (image back : List Byte) : Option Nat :=
  (image.zip back).findIdx? (fun x => x.1 != x.2)

/-- SAVE_COMPLETION (R190): the writes are made, the cells that read back otherwise are as the operand says, and the
read-back decides the state and the event. -/
def completeSave (bad : List (Nat × Byte)) (s : State) : State :=
  match s.loader.save with
  | none => s
  | some job =>
    let memory := ((s.memory.writeAll (saveWrites job.image)).writeAll bad)
    match firstDifference job.image memory.image with
    | none => ({ s with memory := memory, loader := ⟨.loaded, none⟩ } : State).emit (.saveDone job.console)
    | some i =>
      ({ s with memory := memory, loader := ⟨.error, none⟩ } : State).emit (.saveFailed (imagePart i) job.console)

def execSaveCompletion (bad : List (Nat × Byte)) (s : State) : Host.Outcome State Fault Refusal :=
  .next (completeSave bad s)

/-! ### Pin reset (R185, R191) -/

/-- The memory a pin reset leaves: as it was, or with the writes that a save in progress had made (R191, log entry 9). -/
def resetMemory (written : Nat) (s : State) : Memory :=
  match s.loader.save with
  | none => s.memory
  | some job => s.memory.writeAll ((saveWrites job.image).take written)

/-- A line after pin reset: its qualified level is the reset level, and qualification begins at once from there (R135,
log entry 11). -/
def resetLine (i : Fin 8) (ls : LineState) : LineState :=
  let level := (LineState.resetLines.get i).qualified
  ⟨ls.raw, level, decide (ls.raw ≠ level)⟩

/-- PIN_RESET: every block in its reset values, the load begun; the queue of commands is the model's own and stays. -/
def pinReset (written : Nat) (s : State) : State :=
  { State.reset with
    pending := s.pending
    memory := resetMemory written s
    lines := s.lines.mapIdx resetLine }

def execPinReset (written : Nat) (s : State) : Host.Outcome State Fault Refusal :=
  .next (pinReset written s)

/-! ### The load (R187, R188, R198) -/

/-- An axis record of the image: none when it fails test 5 on its own bytes, else the configuration it holds, if any
(R187, R198). -/
def readAxis (bytes : List Byte) : Option (Option AxisConfig) :=
  match bytes with
  | [present, station, l1, l0, h1, h0, v1, v0, r1, r0, f1, f0, m1, m0, x1, x0] =>
    let c := rawConfig
      ⟨present, station, half l1 l0, half h1 h0, half v1 v0, half r1 r0, half f1 f0, half m1 m0, half x1 x0⟩
    if present = 0 then some none
    else if present = 1 ∧ c.valid = true then some (some c)
    else none
  | _ => none

/-- The axis records from number n on; `seen` are the station addresses of earlier present records. The error is the
lowest axis number that fails test 5 (R187). -/
def readAxes (n : Nat) (seen : List Nat) : List (List Byte) → Except Nat (List (Option AxisConfig))
  | [] => .ok []
  | bytes :: rest =>
    match readAxis bytes with
    | none => .error n
    | some none => (readAxes (n + 1) seen rest).map (none :: ·)
    | some (some c) =>
      if c.station ∈ seen then .error n else (readAxes (n + 1) (c.station :: seen) rest).map (some c :: ·)

/-- A pair record of the image: none when it fails test 6 (R187, R198). -/
def readPair (bytes : List Byte) : Option (Option ClashPair) :=
  match bytes with
  | [defined, upper, lower, g1, g0] =>
    if defined = 0 then some none
    else if defined = 1 then
      match axisOf upper, axisOf lower with
      | some u, some l =>
        if u ≠ l ∧ (half g1 g0).toNat ≤ 5000 then some (some ⟨u, l, (half g1 g0).toNat, none⟩) else none
      | _, _ => none
    else none
  | _ => none

/-- The pair records from number n on; the error is the lowest pair number that fails test 6 (R187). -/
def readPairs (n : Nat) : List (List Byte) → Except Nat (List (Option ClashPair))
  | [] => .ok []
  | bytes :: rest =>
    match readPair bytes with
    | none => .error n
    | some po => (readPairs (n + 1) rest).map (po :: ·)

/-- The records of an image from an offset: `count` of them, `width` bytes each. -/
def records (image : List Byte) (offset width count : Nat) : List (List Byte) :=
  (List.range count).map (fun n => (image.drop (offset + width * n)).take width)

/-- A configuration an image holds, axis by axis and pair by pair. -/
structure Configuration where
  axes : List (Option AxisConfig)
  pairs : List (Option ClashPair)
  deriving DecidableEq, Repr

/-- Nothing to install. -/
def Configuration.empty : Configuration := ⟨[], []⟩

/-- How many records of a list hold something. -/
def countHeld {α : Type} (xs : List (Option α)) : Nat := (xs.filter Option.isSome).length

/-- Tests 5 to 7 (R187). -/
def judgeRecords (image : List Byte) : LoadOutcome × Configuration :=
  match readAxes 0 [] (records image 5 16 48) with
  | .error n => (.axis n, .empty)
  | .ok axes =>
    match readPairs 0 (records image 773 5 32) with
    | .error n => (.pair n, .empty)
    | .ok pairs => (.loaded (countHeld axes) (countHeld pairs), ⟨axes, pairs⟩)

/-- The image's CRC-16 checks (R192, R197). -/
def imageChecks (image : List Byte) : Bool :=
  decide (crcBytes (image.take 933) = (image.drop 933).take 2)

/-- The tests of the load, in order (R187). -/
def judgeImage (image : List Byte) : LoadOutcome × Configuration :=
  if image.take 2 = [0xFF, 0xFF] then (.blank, .empty)
  else if image.take 2 ≠ [0x4C, 0x43] then (.marker, .empty)
  else if (image.drop 2).take 3 ≠ [1, 48, 32] then (.format, .empty)
  else if imageChecks image = false then (.crc, .empty)
  else judgeRecords image

/-- The configuration state an outcome gives (R188). -/
def LoadOutcome.state : LoadOutcome → ConfigState
  | .loaded _ _ => .loaded
  | .blank => .blank
  | .marker | .format | .crc | .axis _ | .pair _ => .error

/-- The configuration is installed: each present axis OFFLINE with a new station entry, each defined pair in its slot
(R188). -/
def install (c : Configuration) (s : State) : State :=
  { s with
    axes := s.axes.mapIdx (fun a ax =>
      match c.axes.getD a.val none with
      | some cfg => { ax with config := some cfg, state := .offline }
      | none => ax)
    stations := s.stations.mapIdx (fun a eo =>
      match c.axes.getD a.val none with
      | some cfg => some (StationEntry.new cfg.station)
      | none => eo)
    pairs := s.pairs.mapIdx (fun n po =>
      match c.pairs.getD n.val none with
      | some pr => some pr
      | none => po) }

/-- IMAGE_LOAD_COMPLETION (R188), while the state is LOADING: the image is installed whole or not at all, the state takes
the outcome, and CONFIG_RESULT is posted. It is offered to the ports within this step, behind any event still waiting: no
SET_FILTER can come between, so it meets the reset filters, is the first event in every queue and raises every ATTENTION
(R179, log entry 37). -/
def completeLoad (found : List (Nat × Byte)) (s : State) : State :=
  if s.loader.state = .loading then
    let memory := s.memory.writeAll found
    let verdict := judgeImage memory.image
    let s1 := install verdict.2 { s with memory := memory, loader := { s.loader with state := verdict.1.state } }
    offerAll (s1.emit (.configResult verdict.1))
  else s

def execImageLoadCompletion (found : List (Nat × Byte)) (s : State) : Host.Outcome State Fault Refusal :=
  .next (completeLoad found s)

end Sys2Proof.Machine
end

