-- ==== Sys2Proof/Machine/Dispatch.lean ====
section
/-! DEFINITION. One arm per command: each a direct call of the command's meaning. -/

namespace Sys2Proof.Machine

/-- The effect of a command on everything but the queue of commands. -/
def exec (i : Instr) (s : State) : Host.Outcome State Fault Refusal :=
  match i with
  | .pinReset written => Sys2Proof.Machine.execPinReset written s
  | .imageLoadCompletion found => Sys2Proof.Machine.execImageLoadCompletion found s
  | .saveCompletion bad => Sys2Proof.Machine.execSaveCompletion bad s
  | .periodStart => Sys2Proof.Machine.execPeriodStart s
  | .motionGeneratorWork l => Sys2Proof.Machine.execMotionGeneratorWork l s
  | .stopTrajectoryStep a => Sys2Proof.Machine.execStopTrajectoryStep a s
  | .arrival a => Sys2Proof.Machine.execArrival a s
  | .stepCompletion l => Sys2Proof.Machine.execStepCompletion l s
  | .followExpiry l => Sys2Proof.Machine.execFollowExpiry l s
  | .linkedDecrement l => Sys2Proof.Machine.execLinkedDecrement l s
  | .releaseTimeout l => Sys2Proof.Machine.execReleaseTimeout l s
  | .releaseEnd l => Sys2Proof.Machine.execReleaseEnd l s
  | .trackingMark a => Sys2Proof.Machine.execTrackingMark a s
  | .planCompletion => Sys2Proof.Machine.execPlanCompletion s
  | .planWithdrawal l => Sys2Proof.Machine.execPlanWithdrawal l s
  | .planResult l => Sys2Proof.Machine.execPlanResult l s
  | .faultRequest a cause => Sys2Proof.Machine.execFaultRequest a cause s
  | .faultNotice l a => Sys2Proof.Machine.execFaultNotice l a s
  | .interlockTrip l pair => Sys2Proof.Machine.execInterlockTrip l pair s
  | .emergency l => Sys2Proof.Machine.execEmergency l s
  | .enableHalt l c => Sys2Proof.Machine.execEnableHalt l c s
  | .holdAssertion l n => Sys2Proof.Machine.execHoldAssertion l n s
  | .rawLevelChange line high => Sys2Proof.Machine.execRawLevelChange line high s
  | .qualifiedChange line => Sys2Proof.Machine.execQualifiedChange line s
  | .driveRound => Sys2Proof.Machine.execDriveRound s
  | .statusFrame latency bytes => Sys2Proof.Machine.execStatusFrame latency bytes s
  | .replyWindowExpiry => Sys2Proof.Machine.execReplyWindowExpiry s
  | .stationOnlineNotice a => Sys2Proof.Machine.execStationOnlineNotice a s
  | .stationLostNotice a => Sys2Proof.Machine.execStationLostNotice a s
  | .supervisorReplyCheck a => Sys2Proof.Machine.execSupervisorReplyCheck a s
  | .consoleFrame p => Sys2Proof.Machine.execConsoleFrame p s
  | .frameTimeout p => Sys2Proof.Machine.execFrameTimeout p s
  | .replySent p => Sys2Proof.Machine.execReplySent p s
  | .eventPosted => Sys2Proof.Machine.execEventPosted s
  | .take p tag lane => Sys2Proof.Machine.execTake p tag lane s
  | .yield p tag lane => Sys2Proof.Machine.execYield p tag lane s
  | .load p tag lane step => Sys2Proof.Machine.execLoad p tag lane step s
  | .go p tag lane => Sys2Proof.Machine.execGo p tag lane s
  | .halt p tag lane => Sys2Proof.Machine.execHalt p tag lane s
  | .clearLane p tag lane => Sys2Proof.Machine.execClearLane p tag lane s
  | .setRate p tag lane rate => Sys2Proof.Machine.execSetRate p tag lane rate s
  | .setRepeat p tag lane count => Sys2Proof.Machine.execSetRepeat p tag lane count s
  | .setHoldLine p tag lane source => Sys2Proof.Machine.execSetHoldLine p tag lane source s
  | .direct p tag lane rs tn moves => Sys2Proof.Machine.execDirect p tag lane rs tn moves s
  | .getLane p tag lane => Sys2Proof.Machine.execGetLane p tag lane s
  | .putStep p tag step body => Sys2Proof.Machine.execPutStep p tag step body s
  | .dropStep p tag step => Sys2Proof.Machine.execDropStep p tag step s
  | .getStep p tag selector number => Sys2Proof.Machine.execGetStep p tag selector number s
  | .putAxis p tag axis config => Sys2Proof.Machine.execPutAxis p tag axis config s
  | .putAxisRemove p tag axis => Sys2Proof.Machine.execPutAxisRemove p tag axis s
  | .getAxis p tag axis => Sys2Proof.Machine.execGetAxis p tag axis s
  | .lockSet p tag value mask => Sys2Proof.Machine.execLockSet p tag value mask s
  | .clearFault p tag axis => Sys2Proof.Machine.execClearFault p tag axis s
  | .putPair p tag pair upper lower gap => Sys2Proof.Machine.execPutPair p tag pair upper lower gap s
  | .dropPair p tag pair => Sys2Proof.Machine.execDropPair p tag pair s
  | .getStation p tag axis clear => Sys2Proof.Machine.execGetStation p tag axis clear s
  | .poll p tag => Sys2Proof.Machine.execPoll p tag s
  | .fetch p tag => Sys2Proof.Machine.execFetch p tag s
  | .setFilter p tag filter => Sys2Proof.Machine.execSetFilter p tag filter s
  | .eStop p tag => Sys2Proof.Machine.execEStop p tag s
  | .clearEStop p tag => Sys2Proof.Machine.execClearEStop p tag s
  | .masterClear p tag => Sys2Proof.Machine.execMasterClear p tag s
  | .saveImage p tag => Sys2Proof.Machine.execSaveImage p tag s
  | .byteReceived p byte framingFault => Sys2Proof.Machine.execByteReceived p byte framingFault s

end Sys2Proof.Machine
end

