-- ==== Sys2Proof/Safety.lean ====
section
/-! DEFINITION. What the statements about the part speak of: which commands are requests, when a request is taken and
what its reply and its events leave behind, and the laws the manual says always hold. -/

namespace Sys2Proof

/-- The port, the TAG and the KIND of a request row, none for a step of the part's own (Table 12-2). -/
def Instr.request : Instr → Option (Console × Byte × Byte)
  | .take p tag _ => some (p, tag, 0x10)
  | .yield p tag _ => some (p, tag, 0x11)
  | .load p tag _ _ => some (p, tag, 0x12)
  | .go p tag _ => some (p, tag, 0x13)
  | .halt p tag _ => some (p, tag, 0x14)
  | .clearLane p tag _ => some (p, tag, 0x15)
  | .setRate p tag _ _ => some (p, tag, 0x16)
  | .setRepeat p tag _ _ => some (p, tag, 0x17)
  | .setHoldLine p tag _ _ => some (p, tag, 0x18)
  | .direct p tag _ _ _ _ => some (p, tag, 0x19)
  | .getLane p tag _ => some (p, tag, 0x1A)
  | .putStep p tag _ _ => some (p, tag, 0x20)
  | .dropStep p tag _ => some (p, tag, 0x21)
  | .getStep p tag _ _ => some (p, tag, 0x22)
  | .putAxis p tag _ _ => some (p, tag, 0x30)
  | .putAxisRemove p tag _ => some (p, tag, 0x30)
  | .getAxis p tag _ => some (p, tag, 0x31)
  | .lockSet p tag _ _ => some (p, tag, 0x32)
  | .clearFault p tag _ => some (p, tag, 0x33)
  | .putPair p tag _ _ _ _ => some (p, tag, 0x34)
  | .dropPair p tag _ => some (p, tag, 0x35)
  | .getStation p tag _ _ => some (p, tag, 0x40)
  | .poll p tag => some (p, tag, 0x50)
  | .fetch p tag => some (p, tag, 0x51)
  | .setFilter p tag _ => some (p, tag, 0x52)
  | .eStop p tag => some (p, tag, 0x53)
  | .clearEStop p tag => some (p, tag, 0x54)
  | .masterClear p tag => some (p, tag, 0x55)
  | .saveImage p tag => some (p, tag, 0x56)
  | .pinReset _ | .imageLoadCompletion _ | .saveCompletion _ | .periodStart | .motionGeneratorWork _
  | .stopTrajectoryStep _ | .arrival _ | .stepCompletion _ | .followExpiry _ | .linkedDecrement _
  | .releaseTimeout _ | .releaseEnd _ | .trackingMark _ | .planCompletion | .planWithdrawal _ | .planResult _
  | .faultRequest _ _ | .faultNotice _ _ | .interlockTrip _ _ | .emergency _ | .enableHalt _ _
  | .holdAssertion _ _ | .rawLevelChange _ _ | .qualifiedChange _ | .driveRound | .statusFrame _ _
  | .replyWindowExpiry | .stationOnlineNotice _ | .stationLostNotice _ | .supervisorReplyCheck _
  | .consoleFrame _ | .frameTimeout _ | .replySent _ | .eventPosted | .byteReceived _ _ _ => none

end Sys2Proof

namespace Sys2Proof.Machine

/-! ### Requests -/

/-- The owning block takes the request: it is the port's request in progress, or its frame passes admission and the request
is taken at once (R172, R173). That a request command stands for its frame in the second case is log entry 3, on which
every statement about a request rests. -/
abbrev Taken (s : State) (p : Console) (i : Instr) : Prop :=
  (s.port p).inProgress = some i ∨
    ((s.port p).inProgress = none ∧ s.loader.state ≠ .loading ∧ (s.port p).transmit.length < Config.overrunDepth)

/-- A port to which events have been offered, in order (R177, R178). -/
def offered (es : List EventRecord) (pt : Port) : Port := es.foldl (fun q e => offerPort e q) pt

/-- The state with events posted and waiting, in order (R176). -/
def emitAll (es : List EventBody) (s : State) : State :=
  s.updMessages (fun m => { m with posted := m.posted ++ es.map (fun e => ⟨e, s.period⟩) })

/-- What an accepted or refused request leaves: the state `u` that its own change makes, its events `es` offered to every
port after those that were waiting, and its reply at the tail of the port's transmit queue (R173, R177). That all events
waiting, those of other blocks among them, are offered with a request's own and in the order posted is log entry 5; with
no event of its own a request offers nothing. -/
def answered (p : Console) (u : State) (es : List EventBody) (r : PortReply) : State :=
  let v : State :=
    if es = [] then u
    else
      { u with
        ports := u.ports.map (offered (u.messages.posted ++ es.map (fun e => ⟨e, u.period⟩)))
        messages := { u.messages with posted := [] } }
  v.updPort p (fun pt => { pt with inProgress := none, transmit := pt.transmit ++ [r] })

/-! ### What several commands do alike -/

/-- The axes with those of one lane unowned (R37). -/
def disowned (l : LaneId) (axes : Table 48 Axis) : Table 48 Axis :=
  axes.map (fun ax => if ax.owner = some l then { ax with owner := none } else ax)

/-- The first check of R61 that fails for a lane: the emergency latch, the ENABLE of console `c`, the current step, then
the claim tests in move-list order (R35). -/
def firstRefusal (s : State) (l : LaneId) (c : Console) : Option Refused :=
  if s.latch then some ⟨.estop, none, none⟩
  else if s.enabled c = false then some ⟨.notEnabled, none, none⟩
  else
    match currentStep s l with
    | none => some ⟨.noStep, none, none⟩
    | some st => (st.moves.map (·.axis)).findSome? (claimTest s l)

/-- A target clamped into soft limits, in whole millimetres (R88). -/
def clampedTarget (low high target : Nat) : Nat :=
  if target < low then low else if high < target then high else target

/-- The height of an axis for a gap: the floor of its setpoint, else of its last feedback, else none (R147). -/
def HeightNow (s : State) (a : AxisId) (h : Option Nat) : Prop :=
  (∀ v, (s.axis a).setpoint = some v → h = some (v / 65536)) ∧
    ((s.axis a).setpoint = none → h = (s.axis a).feedback.map (fun f => f / 65536))

/-- The gap of a pair as its axes stand: upper height minus lower height, absent when one has no height (R147). -/
def GapNow (s : State) (pr : ClashPair) (g : Option Int) : Prop :=
  ∃ u l : Option Nat, HeightNow s pr.upper u ∧ HeightNow s pr.lower l ∧
    (∀ x y : Nat, u = some x → l = some y → g = some ((x : Int) - (y : Int))) ∧ (u = none ∨ l = none → g = none)

/-- The setpoint of an axis has been written or become absent, so that each of its active pairs has the gap as it now stands
for its last gap; every other pair is as it was (R144, R147). -/
def GapsFollow (a : AxisId) (s t : State) : Prop :=
  ∀ n : PairId,
    (s.pairs.get n = none → t.pairs.get n = none) ∧
    ∀ pr, s.pairs.get n = some pr →
      ((pr.upper = a ∨ pr.lower = a) → (t.axis pr.upper).config ≠ none → (t.axis pr.lower).config ≠ none →
        ∃ g, GapNow t pr g ∧ t.pairs.get n = some { pr with lastGap := g }) ∧
      ((pr.upper ≠ a ∧ pr.lower ≠ a) ∨ (t.axis pr.upper).config = none ∨ (t.axis pr.lower).config = none →
        t.pairs.get n = some pr)

/-- The height to which R95 refers an axis outside a plan: its planned target while it is MOVING under another lane, else
the floor of its setpoint, else of its last feedback. -/
def OutsideHeight (s : State) (a : AxisId) (h : Option Nat) : Prop :=
  (∀ k p m, (s.axis a).state = .moving → (s.axis a).owner = some k → (s.lane k).plan = some p →
    p.members.find? (fun x => decide (x.axis = a)) = some m → h = some m.target) ∧
  ((s.axis a).state ≠ .moving ∨ (s.axis a).owner = none → HeightNow s a h)

/-- The plan in progress holds the snapshot of R84 for a lane: its resume flag and its current step, of each entry's axis
the state, owner, setpoint, limits, vmax and ramp floor (R88), Tn and every delay 0 on a resume (R98), and every active
pair with a member in the move list, ascending, with the heights of R95. -/
def SnapshotTaken (s : State) (l : LaneId) (j : PlanJob) : Prop :=
  j.lane = l ∧ j.resume = (s.lane l).resume ∧ j.withdrawn = false ∧
    ∀ st, currentStep s l = some st →
      j.rs = st.rs ∧ j.tn = (if (s.lane l).resume then 0 else st.tn) ∧ j.members.length = st.moves.length ∧
      (∀ (i : Nat) (m : Move) (c : AxisConfig), st.moves[i]? = some m → (s.axis m.axis).config = some c →
        j.members[i]? = some
          { axis := m.axis, state := (s.axis m.axis).state, owner := (s.axis m.axis).owner, target := m.target
            cap := m.cap.getD 100, delay := if (s.lane l).resume then 0 else m.delay.getD 0
            setpoint := (s.axis m.axis).setpoint
            low := c.low, high := c.high, vmax := c.vmax, rampFloor := c.rampFloor }) ∧
      (∀ n, n ∈ j.pairs.map (·.pair) ↔ ∃ pr, s.pairs.get n = some pr ∧
        (s.axis pr.upper).config ≠ none ∧ (s.axis pr.lower).config ≠ none ∧
        ∃ m ∈ st.moves, m.axis = pr.upper ∨ m.axis = pr.lower) ∧
      (j.pairs.map (·.pair)).Pairwise (· < ·) ∧
      ∀ x ∈ j.pairs, ∃ pr, s.pairs.get x.pair = some pr ∧ x.upper = pr.upper ∧ x.lower = pr.lower ∧ x.gap = pr.gap ∧
        OutsideHeight s pr.upper x.upperOutside ∧ OutsideHeight s pr.lower x.lowerOutside

/-- A member fails the void check of R87 as the axis stands. -/
def FailsVoidCheck (s : State) (l : LaneId) (m : MemberInput) : Prop :=
  (s.axis m.axis).owner ≠ some l ∨ (s.axis m.axis).state ≠ .rest ∨
    (∀ e, s.station m.axis = some e → e.state ≠ .online) ∨ m.setpoint = none ∨
    (s.axis m.axis).setpoint ≠ m.setpoint

/-- The height to which R95 refers an axis of a pair: a member's clamped target, else the height of the snapshot. -/
def PlanHeight (j : PlanJob) (a : AxisId) (outside : Option Nat) (h : Nat) : Prop :=
  (∃ m, j.members.find? (fun x => decide (x.axis = a)) = some m ∧ h = clampedTarget m.low m.high m.target) ∨
    ((∀ m ∈ j.members, m.axis ≠ a) ∧ outside = some h)

/-- The end positions of a plan leave a pair less than its minimum gap (R95). -/
def BreaksGap (j : PlanJob) (pr : PairInput) : Prop :=
  ∃ u l : Nat, PlanHeight j pr.upper pr.upperOutside u ∧ PlanHeight j pr.lower pr.lowerOutside l ∧
    (u : Int) - (l : Int) < (pr.gap : Int)

/-- The distance of a member from its clamped target, 0 for one without a setpoint (R88). -/
def travel (m : MemberInput) : Nat :=
  match m.setpoint with
  | none => 0
  | some v => (((clampedTarget m.low m.high m.target * 65536 : Nat) : Int) - (v : Int)).natAbs

/-- The minimum span of a moving member under a ramp (R90, R92). -/
def leastSpan (r : Nat) (m : MemberInput) : Nat :=
  max (2 * r) (r + (travel m + m.vmax * 65536 * m.cap / 20000 - 1) / (m.vmax * 65536 * m.cap / 20000))

/-- A number is the largest of a base and a list. -/
def Largest (n base : Nat) (xs : List Nat) : Prop :=
  base ≤ n ∧ (∀ x ∈ xs, x ≤ n) ∧ (n = base ∨ n ∈ xs)

/-- The plan record that the stages of R88 to R94 make of a snapshot (R97): the group ramp, the group duration and every
member's entry, in claim-set order. -/
def PlanMade (j : PlanJob) (p : PlanRecord) : Prop :=
  Largest p.ramp j.rs ((j.members.filter (fun m => decide (travel m ≠ 0))).map (·.rampFloor)) ∧
  ((∀ m ∈ j.members, travel m = 0) → p.duration = 0) ∧
  ((∃ m ∈ j.members, travel m ≠ 0) → Largest p.duration j.tn
    ((j.members.filter (fun m => decide (travel m ≠ 0))).map (fun m => m.delay + leastSpan p.ramp m))) ∧
  p.frozen = 0 ∧ p.members.length = j.members.length ∧
  ∀ (i : Nat) (m : MemberInput) (v : Nat), j.members[i]? = some m → m.setpoint = some v →
    p.members[i]? = some
      { axis := m.axis, start := v, target := clampedTarget m.low m.high m.target, distance := travel m
        direction := if v < clampedTarget m.low m.high m.target * 65536 then .up
          else if clampedTarget m.low m.high m.target * 65536 < v then .down else .none
        delay := m.delay
        span := if travel m ≠ 0 then p.duration - m.delay else 0
        cruise := if travel m ≠ 0 then travel m / (p.duration - m.delay - p.ramp) else 0
        clipped := decide (clampedTarget m.low m.high m.target ≠ m.target) }

/-- A lane has entered PLANNING with its claim granted and its number in the Planner's hands: at the tail of the queue
behind a plan in progress, or served at once with its snapshot when the Planner was idle (R35, R61, R62, R83, R84). That an
axis the lane owned and does not list becomes unowned is log entry 21. -/
def EntersPlanning (l : LaneId) (resume : Bool) (s t : State) : Prop :=
  ∃ st, currentStep s l = some st ∧
    t.lane l = { s.lane l with
      state := .planning, resume := resume, haltCause := .none, plan := none, planResult := none
      claimSet := st.moves.map (·.axis), followDue := false, decrements := 0 } ∧
    (∀ a : AxisId, t.axis a = { s.axis a with
      owner := if a ∈ st.moves.map (·.axis) then some l
        else if (s.axis a).owner = some l then none else (s.axis a).owner }) ∧
    (∀ j, s.planner.inProgress = some j → l ∉ s.planner.withdrawals →
      t.planner = { s.planner with queue := s.planner.queue ++ [l] }) ∧
    (s.planner.inProgress = none → s.planner.queue = [] →
      t.planner.queue = [] ∧ ∃ j, t.planner.inProgress = some j ∧ SnapshotTaken t l j) ∧
    (∀ k : LaneId, k ≠ l → t.lane k = s.lane k) ∧
    { t with lanes := s.lanes, axes := s.axes, planner := s.planner } = s

/-- A RUNNING lane has taken a controlled halt: the cause recorded, its profile frozen, each MOVING member that has departed
with a velocity STOPPING on a record of it, every other MOVING member REST, and the lane STOPPING, or HELD when no member
is left in motion, with every other field of its record as it was (R70, R71, R116). A member whose arrival request is
outstanding is REST (log entry 15); the first stop step is due at a period start whose work the halt came before (R116,
R117). -/
def ControlledStop (l : LaneId) (cause : HaltCause) (s t : State) : Prop :=
  (∀ a ∈ (s.lane l).claimSet, (s.axis a).state = .moving →
      (((s.axis a).arriving = false ∧ departed s l a = true ∧ lastMovement (s.axis a) ≠ 0 →
        t.axis a = { s.axis a with state := .stopping } ∧
        t.stop a = some
          { velocity := lastMovement (s.axis a)
            direction := plannedDirection s l a
            rampFloor := match (s.axis a).config with | some c => c.rampFloor | none => 0
            index := 0, posted := false
            due := match s.context l with | some c => c.due | none => false }) ∧
      (¬ ((s.axis a).arriving = false ∧ departed s l a = true ∧ lastMovement (s.axis a) ≠ 0) →
        t.axis a = { s.axis a with state := .rest, arriving := false } ∧ t.stop a = s.stop a))) ∧
    (∀ a : AxisId, (a ∉ (s.lane l).claimSet ∨ (s.axis a).state ≠ .moving) →
      t.axis a = s.axis a ∧ t.stop a = s.stop a) ∧
    ((∀ a ∈ (s.lane l).claimSet, (t.axis a).state ≠ .moving ∧ (t.axis a).state ≠ .stopping) →
      t.context l = none ∧
      ∀ c, s.context l = some c → t.lane l = { s.lane l with
        state := .held, haltCause := cause, holdLatch := false
        plan := (s.lane l).plan.map (fun p => { p with frozen := c.profileTime }) }) ∧
    (¬ (∀ a ∈ (s.lane l).claimSet, (t.axis a).state ≠ .moving ∧ (t.axis a).state ≠ .stopping) →
      t.context l = s.context l ∧ t.lane l = { s.lane l with state := .stopping, haltCause := cause }) ∧
    (∀ k : LaneId, k ≠ l → t.lane k = s.lane k ∧ t.context k = s.context k) ∧
    { t with lanes := s.lanes, axes := s.axes, stops := s.stops, contexts := s.contexts,
             messages := s.messages } = s

/-- The LANE_STATE events of a controlled halt that leaves a lane as it is in `t` (R56, R70). -/
def stopEvents (l : LaneId) (cause : HaltCause) (t : State) : List EventBody :=
  .laneState l .running .stopping cause ::
    (if (t.lane l).state = .held then [.laneState l .stopping .held cause] else [])

/-- A STOPPING lane has made its end test (R71, R120): HELD, with its context discarded, its profile time frozen in the plan
record and its hold latch clear, once no member is MOVING or STOPPING, and else as it was. -/
def EndTest (l : LaneId) (s t : State) : Prop :=
  (∀ c, s.context l = some c →
    (∀ b ∈ (s.lane l).claimSet, (s.axis b).state ≠ .moving ∧ (s.axis b).state ≠ .stopping) →
    t = emitAll [.laneState l .stopping .held (s.lane l).haltCause]
      { s with
        contexts := s.contexts.set l none
        lanes := s.lanes.modify l (fun ln => { ln with
          state := .held, holdLatch := false
          plan := ln.plan.map (fun p => { p with frozen := c.profileTime }) }) }) ∧
  ((∃ b ∈ (s.lane l).claimSet, (s.axis b).state = .moving ∨ (s.axis b).state = .stopping) → t = s)

/-- A lane that is not RUNNING has taken a controlled halt, posting `es` (Table 7-2): a wait ends in READY; a plan is
withdrawn; a release ends with every MOVING member REST; after a fresh start the lane is READY without its axes and after
a resume HELD with them; any other lane is left as it is (R67, R69, R79). -/
def HaltedElsewhere (l : LaneId) (cause : HaltCause) (s u : State) (es : List EventBody) : Prop :=
  ((s.lane l).state ∈ [LaneState.idle, .ready, .stopping, .held] → u = s ∧ es = []) ∧
  ((s.lane l).state = .follow → es = [.laneState l .follow .ready cause] ∧
    u = s.updLane l (fun ln => { ln with state := .ready, haltCause := cause, followDue := false, decrements := 0 })) ∧
  ((s.lane l).state = .planning → (s.lane l).resume = false → es = [.laneState l .planning .ready cause] ∧
    u = { s with
      axes := disowned l s.axes
      planner := { s.planner with withdrawals := s.planner.withdrawals ++ [l] }
      lanes := s.lanes.modify l (fun ln => { ln with
        state := .ready, haltCause := cause, planResult := none, holdLatch := false, plan := none, claimSet := [] }) }) ∧
  ((s.lane l).state = .planning → (s.lane l).resume = true → es = [.laneState l .planning .held cause] ∧
    u = { s with
      planner := { s.planner with withdrawals := s.planner.withdrawals ++ [l] }
      lanes := s.lanes.modify l (fun ln => { ln with
        state := .held, haltCause := cause, planResult := none, holdLatch := false }) }) ∧
  ∀ c axes, s.context l = some c →
    axes = s.axes.mapIdx (fun a ax =>
      if a ∈ (s.lane l).claimSet ∧ ax.state = .moving then { ax with state := .rest, arriving := false } else ax) →
    ((s.lane l).state = .releasing → (s.lane l).resume = false → es = [.laneState l .releasing .ready cause] ∧
      u = { s with
        axes := disowned l axes
        contexts := s.contexts.set l none
        lanes := s.lanes.modify l (fun ln => { ln with
          state := .ready, haltCause := cause, holdLatch := false, plan := none, claimSet := [] }) }) ∧
    ((s.lane l).state = .releasing → (s.lane l).resume = true → es = [.laneState l .releasing .held cause] ∧
      u = { s with
        axes := axes
        contexts := s.contexts.set l none
        lanes := s.lanes.modify l (fun ln => { ln with
          state := .held, haltCause := cause, holdLatch := false
          plan := ln.plan.map (fun p => { p with frozen := c.profileTime }) }) })

/-- What a request's move list must be (R43 checks 2 to 4, R49): a length in range, every axis, target and delay in its
range, and no axis named twice. -/
abbrev movesLawful (longest : Nat) (ms : List RawMove) : Prop :=
  1 ≤ ms.length ∧ ms.length ≤ longest ∧
    (∀ m ∈ ms, m.axis.toNat ≤ 47 ∧ m.target.toNat ≤ 40000 ∧ (m.delay.getD 0).toNat ≤ 4095) ∧
    (ms.map (·.axis)).Nodup

/-- The moves a request spells, as they are stored: the cap as R46 stores it. -/
def StoredAs (ms : List RawMove) (xs : List Move) : Prop :=
  xs.map (fun x => (x.axis.val, x.target, x.cap, x.delay)) =
    ms.map (fun m => (m.axis.toNat, m.target.toNat, m.cap.map storedCap, m.delay.map (·.toNat)))

/-- What PUT STEP's fields must be (R43 checks 2 to 4, Tables 3-1 and 12-2). -/
abbrev stepLawful (b : RawStep) : Prop :=
  movesLawful 16 b.moves ∧ 10 ≤ b.rs.toNat ∧ b.rs.toNat ≤ 400 ∧
    (b.followKind = 0 ∨ b.followKind = 1 ∨
      (b.followKind = 2 ∧ b.followA.toNat ≤ 7 ∧ 1 ≤ b.followB.toNat ∧ b.followB.toNat ≤ 15)) ∧
    (b.next.toNat ≤ 511 ∨ b.next = 0xFFFF)

/-- A configuration obeys R1 but for the station address of other axes, in the fields of Table 12-7. -/
abbrev configLawful (r : RawConfig) : Prop :=
  (1 ≤ r.station.toNat ∧ r.station.toNat ≤ 63) ∧ (r.high.toNat ≤ 40000 ∧ r.low.toNat < r.high.toNat) ∧
    (10 ≤ r.vmax.toNat ∧ r.vmax.toNat ≤ 2000) ∧ (10 ≤ r.rampFloor.toNat ∧ r.rampFloor.toNat ≤ 400) ∧
    (5 ≤ r.followLimit.toNat ∧ r.followLimit.toNat ≤ 500) ∧ (r.loadMax.toNat ≤ 4000 ∧ r.loadMin.toNat ≤ r.loadMax.toNat)

/-- Axis record n of an image, by the offsets of Table 12-7. -/
def imageAxis (image : List Byte) (n : AxisId) : RawConfig :=
  let at_ (k : Nat) : Byte := image.getD (5 + 16 * n.val + k) 0
  ⟨at_ 0, at_ 1, at_ 2 ++ at_ 3, at_ 4 ++ at_ 5, at_ 6 ++ at_ 7, at_ 8 ++ at_ 9, at_ 10 ++ at_ 11, at_ 12 ++ at_ 13,
    at_ 14 ++ at_ 15⟩

/-- Test 5 of R187 fails for axis record n: a present byte other than 0 or 1 (R198), or a present record that breaks R1 or
names the station of an earlier present record. -/
abbrev AxisRecordFails (image : List Byte) (n : AxisId) : Prop :=
  (imageAxis image n).present ≠ 0 ∧ ((imageAxis image n).present ≠ 1 ∨ ¬ configLawful (imageAxis image n) ∨
    ∃ k, k < n ∧ (imageAxis image k).present = 1 ∧ (imageAxis image k).station = (imageAxis image n).station)

/-- The bytes of pair record n of an image, by the offsets of Table 12-8: defined, upper, lower, and the gap in two. -/
def imagePair (image : List Byte) (n : PairId) (k : Nat) : Byte := image.getD (773 + 5 * n.val + k) 0

/-- Test 6 of R187 fails for pair record n: a defined byte other than 0 or 1 (R198), or a defined record that names no axis,
one axis twice, or a gap above 5000. -/
abbrev PairRecordFails (image : List Byte) (n : PairId) : Prop :=
  imagePair image n 0 ≠ 0 ∧ (imagePair image n 0 ≠ 1 ∨ 47 < (imagePair image n 1).toNat ∨
    47 < (imagePair image n 2).toNat ∨ imagePair image n 1 = imagePair image n 2 ∨
    5000 < (imagePair image n 3 ++ imagePair image n 4).toNat)

/-- The station entry of an axis has been replaced or discarded: a slot that listens for its reply is orphaned (R154), and
the replies and notices of the old entry that nobody has taken are gone (log entry 19). -/
def EntryDiscarded (a : AxisId) (s t : State) : Prop :=
  t.link = { s.link with slot := s.link.slot.map (fun sl => if sl.axis = a then { sl with orphan := true } else sl) } ∧
    t.messages = { s.messages with
      replyChecks := s.messages.replyChecks.filter (fun x => decide (x.axis ≠ a))
      markNotices := s.messages.markNotices.filter (fun x => decide (x.axis ≠ a))
      stationNotices := s.messages.stationNotices.filter (fun x => decide (x.axis ≠ a)) }

/-! ### Laws that every step keeps -/

/-- PLANNING, RELEASING or RUNNING, the motion states (4.1). -/
def LaneState.motion : LaneState → Bool
  | .planning | .releasing | .running => true
  | .idle | .ready | .stopping | .held | .follow => false

/-- R57, R126: a lane in a motion state has a controller whose ENABLE is active and the emergency latch is clear, but for
what is delivered to the lane and not yet taken; and no lane stops under a set latch without the emergency still to
take. -/
def StopsReachLanes (s : State) : Prop :=
  ∀ l : LaneId,
    ((s.lane l).state.motion = true ∨ (s.lane l).state = .stopping →
      s.latch = false ∨ LaneMessage.emergency ∈ (s.lane l).inbox) ∧
    ((s.lane l).state.motion = true →
      ∃ c, (s.lane l).controller = some c ∧ (s.enabled c = true ∨ LaneMessage.enableLoss c ∈ (s.lane l).inbox))

/-- R22, R23: an axis is in a lane's claim set exactly when its owner names the lane; a lane in IDLE, READY or FOLLOW owns
nothing and holds no plan record, and one in PLANNING holds no plan record. -/
def ClaimsAgree (s : State) : Prop :=
  (∀ (l : LaneId) (a : AxisId), a ∈ (s.lane l).claimSet ↔ (s.axis a).owner = some l) ∧
    ∀ l : LaneId,
      ((s.lane l).state = .idle ∨ (s.lane l).state = .ready ∨ (s.lane l).state = .follow →
        (s.lane l).claimSet = [] ∧ (s.lane l).plan = none) ∧
      ((s.lane l).state = .planning → (s.lane l).plan = none)

/-- Table 1-2, R1, R152: an axis is UNCONFIGURED exactly when it has no configuration and no station entry, and has a
setpoint and a previous setpoint exactly when it is neither UNCONFIGURED nor OFFLINE; while the image loads nothing is
configured and no request is in progress (R172, R185). -/
def RecordsAgree (s : State) : Prop :=
  (∀ a : AxisId,
    ((s.axis a).config = none ↔ (s.axis a).state = .unconfigured) ∧
    ((s.station a) = none ↔ (s.axis a).state = .unconfigured) ∧
    ((s.axis a).setpoint = none ↔ (s.axis a).state = .unconfigured ∨ (s.axis a).state = .offline) ∧
    ((s.axis a).previous = none ↔ (s.axis a).setpoint = none)) ∧
  (s.loader.state = .loading →
    (∀ a : AxisId, (s.axis a).state = .unconfigured) ∧ ∀ p : Console, (s.port p).inProgress = none)

/-- R82, R83: the plan queue holds only lanes that are PLANNING, each once, but for one whose withdrawal the Planner has not
yet taken (R86); no lane waits in it with a result still to take, or beside a plan in progress that is to be delivered to
it. -/
def PlannerSound (s : State) : Prop :=
  s.planner.queue.Nodup ∧
    (∀ l ∈ s.planner.queue, (s.lane l).state = .planning ∨ l ∈ s.planner.withdrawals) ∧
    (∀ l ∈ s.planner.queue, (s.lane l).state = .planning → (s.lane l).planResult = none) ∧
    ∀ j, s.planner.inProgress = some j → j.withdrawn = false →
      ((s.lane j.lane).state = .planning ∨ j.lane ∈ s.planner.withdrawals) ∧ j.lane ∉ s.planner.queue ∧
      ((s.lane j.lane).state = .planning → (s.lane j.lane).planResult = none)

/-- Whole-millimetre limits hold a position in 16.16 mm, inclusive. -/
def insideLimits (c : AxisConfig) (v : Nat) : Prop := c.low * 65536 ≤ v ∧ v ≤ c.high * 65536

/-- R88, R92, R94: a plan entry of a lane that owns its axis runs between two positions inside the axis's limits. -/
def EntryInside (s : State) (l : LaneId) (r : Nat) (m : PlanMember) : Prop :=
  (s.axis m.axis).owner = some l ∧
    ∀ c, (s.axis m.axis).config = some c → insideLimits c m.start ∧
      (m.direction = .up → m.start + m.distance ≤ c.high * 65536) ∧
      (m.direction = .down → c.low * 65536 + m.distance ≤ m.start) ∧
      (m.distance ≠ 0 → 2 * r ≤ m.span ∧ m.cruise * (m.span - r) ≤ m.distance)

/-- R12: every present setpoint lies inside the soft limits of its axis; and what keeps it so: the limits are in order, every
plan that can still move an axis, and every snapshot that can still become one, was made for an axis its lane owns and for
the limits the axis has (R16), a PLANNING lane owns the axes of its step (R34), and nothing is planned while the image
loads (R185). -/
def SetpointsInside (s : State) : Prop :=
  (∀ a c, (s.axis a).config = some c → c.low < c.high ∧ ∀ v, (s.axis a).setpoint = some v → insideLimits c v) ∧
  (∀ l p, ((s.lane l).state = .releasing ∨ (s.lane l).state = .running) → (s.lane l).plan = some p →
    ∀ m ∈ p.members, EntryInside s l p.ramp m) ∧
  (∀ l p, (s.lane l).state = .planning → (s.lane l).planResult = some (.ok p) →
    ∀ m ∈ p.members, EntryInside s l p.ramp m) ∧
  (∀ j, s.planner.inProgress = some j → j.withdrawn = false → (s.lane j.lane).state = .planning →
    ∀ m ∈ j.members, (s.axis m.axis).owner = some j.lane ∧
      ∀ c, (s.axis m.axis).config = some c → m.low = c.low ∧ m.high = c.high ∧
        ∀ v, m.setpoint = some v → insideLimits c v) ∧
  (∀ l st, (s.lane l).state = .planning → currentStep s l = some st →
    ∀ m ∈ st.moves, (s.axis m.axis).owner = some l) ∧
  (s.loader.state = .loading → ∀ l : LaneId, (s.lane l).state = .idle)

/-- Table 10-1, R174, R178: the bounds of a port record. -/
def PortsBounded (s : State) : Prop :=
  ∀ p : Console,
    (s.port p).events.length ≤ Config.eventQueueSize ∧ (s.port p).transmit.length ≤ 4 ∧
    ((s.port p).inProgress ≠ none → (s.port p).transmit.length ≤ 3) ∧
    (s.port p).filter ≤ 3 ∧ (s.port p).frameErrors ≤ Config.counterMax

/-- A stored move list of at most `longest` entries, one for each axis (R42). -/
def lawfulMoves (longest : Nat) (moves : List Move) : Prop :=
  1 ≤ moves.length ∧ moves.length ≤ longest ∧ (moves.map (·.axis)).Nodup

/-- R42: no stored step holds two entries for one axis, every numbered step holds 1 to 16 entries and every private step
1 to 4, and the numbered steps together hold at most 2048. -/
def StoreLawful (s : State) : Prop :=
  (∀ n st, s.cues.slots.get n = some st → lawfulMoves 16 st.moves) ∧
    (∀ l st, s.cues.privates.get l = some st → lawfulMoves 4 st.moves) ∧
    s.cues.taken ≤ Config.poolSize

/-- R1 and R144 as an image keeps them: every configuration is in its ranges, station addresses differ, and every pair
names two axes with a gap in its range. -/
def ConfigurationLawful (s : State) : Prop :=
  (∀ a c, (s.axis a).config = some c → c.valid = true) ∧
    (∀ a b c d, (s.axis a).config = some c → (s.axis b).config = some d → c.station = d.station → a = b) ∧
    ∀ n pr, s.pairs.get n = some pr → pr.upper ≠ pr.lower ∧ pr.gap ≤ 5000

end Sys2Proof.Machine
end

