-- ==== Sys2Proof/Certificates/Slice0/Obligations.lean ====
section
/-! DEFINITION. The statements about the part, each a Prop: what every command does where the manual gives it its effect,
and the laws that every step keeps. A frame is written as an equation: the next state with the changed fields put back
is the state before. -/

open Sys2Proof Sys2Proof.Machine

/-! ### The machine -/

/-- A step takes the command at the front of the queue and is exec of it on the state with the queue's rest; with no
command waiting the part idles (log entry 2). -/
def Obligations.step_takes_the_front_command : Prop :=
  (∀ (c : Instr) (rest : List Instr) (s : State),
    step (s.withPending (c :: rest)) = exec c (s.withPending rest)) ∧
  ∀ s : State, s.pending = [] → step s = .next s

/-- Every record of the part at pin reset holds the value the manual gives it (Tables 1-5, 2-4, 3-3, 7-3, 8-4, 9-4,
10-5, 11-1; R82, R99). -/
def Obligations.reset_gives_each_record_its_value : Prop :=
  State.reset.latch = true ∧ State.reset.period = 0 ∧ State.reset.loader = ⟨.loading, none⟩ ∧
  (∀ a : AxisId,
    (State.reset.axis a).config = none ∧ (State.reset.axis a).state = .unconfigured ∧
    (State.reset.axis a).lock = true ∧ (State.reset.axis a).owner = none ∧ (State.reset.axis a).setpoint = none ∧
    (State.reset.axis a).previous = none ∧ (State.reset.axis a).feedback = none ∧ (State.reset.axis a).load = none ∧
    (State.reset.axis a).loadWarning = false ∧ State.reset.station a = none ∧ State.reset.stop a = none) ∧
  (∀ l : LaneId,
    (State.reset.lane l).state = .idle ∧ (State.reset.lane l).controller = none ∧ (State.reset.lane l).base = none ∧
    (State.reset.lane l).current = none ∧ (State.reset.lane l).repeatSetting = 0 ∧
    (State.reset.lane l).repeatRemaining = 0 ∧ (State.reset.lane l).followCounter = 0 ∧
    (State.reset.lane l).followKind = none ∧ (State.reset.lane l).holdSource = none ∧
    (State.reset.lane l).holdLatch = false ∧ (State.reset.lane l).requestedRate = 256 ∧
    (State.reset.lane l).effectiveRate = 256 ∧ (State.reset.lane l).claimSet = [] ∧
    (State.reset.lane l).resume = false ∧ (State.reset.lane l).plan = none ∧ (State.reset.lane l).haltCause = .none ∧
    (State.reset.lane l).seqEnd = false ∧ (State.reset.lane l).lastCompleted = none ∧
    State.reset.context l = none ∧ State.reset.cues.privates.get l = none) ∧
  (∀ n : StepNo, State.reset.cues.slots.get n = none) ∧ State.reset.cues.free = 2048 ∧
  State.reset.planner.queue = [] ∧ State.reset.planner.inProgress = none ∧
  (∀ n : PairId, State.reset.pairs.get n = none) ∧
  (∀ i : Fin 8, (State.reset.lines.get i).qualified = decide (i = 0) ∧ (State.reset.lines.get i).timing = false) ∧
  ∀ p : Console,
    (State.reset.port p).receiver = .hunt ∧ (State.reset.port p).inProgress = none ∧
    (State.reset.port p).transmit = [] ∧ (State.reset.port p).events = [] ∧ (State.reset.port p).filter = 3 ∧
    (State.reset.port p).pending1 = false ∧ (State.reset.port p).pending2 = false ∧
    (State.reset.port p).pending3 = false ∧ (State.reset.port p).overflow = false ∧
    (State.reset.port p).frameErrors = 0 ∧ (State.reset.port p).attention = false

/-! ### Start-up and the rig image (Chapter 11) -/

/-- PIN_RESET puts every block into its reset values from any state. A save in progress ends with the byte writes it had
made in the memory (R191); each line keeps its raw level, takes its reset level as the qualified one and begins to
qualify at once where they differ (R135; that the raw levels outlast the reset is log entry 11). -/
def Obligations.pin_reset_restores_the_reset_values : Prop :=
  ∀ (written : Nat) (s : State),
    exec (.pinReset written) s = .next
      { State.reset with
        pending := s.pending
        lines := s.lines.mapIdx (fun i ls => ⟨ls.raw, decide (i = 0), decide (ls.raw ≠ decide (i = 0))⟩)
        memory := match s.loader.save with
          | none => s.memory
          | some job => s.memory.writeAll ((saveWrites job.image).take written) }

/-- A save that a pin reset ends after `n` byte writes leaves the previous image, or a marker that ends the next load in
ERROR, or the complete image: a partial image is never installed (R190, R191). -/
def Obligations.an_interrupted_save_is_never_loaded_in_part : Prop :=
  ∀ (m : Memory) (image : List Byte) (n : Nat),
    Memory.wf m = true → image.length = Config.imageSize → image.take 2 = [0x4C, 0x43] →
      (n = 0 → (m.writeAll ((saveWrites image).take n)).image = m.image) ∧
      (0 < n → n < Config.imageSize + 2 → (judgeImage (m.writeAll ((saveWrites image).take n)).image).1 = .marker) ∧
      (Config.imageSize + 2 ≤ n → (m.writeAll ((saveWrites image).take n)).image = image)

/-- The tests of the load are made in order and the first that applies gives the outcome: BLANK, MARKER, FORMAT, CRC, AXIS
with the lowest axis record that fails, PAIR with the lowest pair record that fails, and else LOADED with the records
counted and read field by field; only LOADED gives anything to install (R187, R197, R198). -/
def Obligations.the_load_tests_are_made_in_order : Prop :=
  ∀ image : List Byte,
    (image.take 2 = [0xFF, 0xFF] → (judgeImage image).1 = .blank) ∧
    (image.take 2 ≠ [0xFF, 0xFF] → image.take 2 ≠ [0x4C, 0x43] → (judgeImage image).1 = .marker) ∧
    (image.take 2 = [0x4C, 0x43] → (image.drop 2).take 3 ≠ [1, 48, 32] → (judgeImage image).1 = .format) ∧
    (image.take 2 = [0x4C, 0x43] → (image.drop 2).take 3 = [1, 48, 32] →
      crcBytes (image.take 933) ≠ (image.drop 933).take 2 → (judgeImage image).1 = .crc) ∧
    (image.length = Config.imageSize → image.take 2 = [0x4C, 0x43] → (image.drop 2).take 3 = [1, 48, 32] →
      crcBytes (image.take 933) = (image.drop 933).take 2 →
      (∀ n : AxisId, AxisRecordFails image n → (∀ k : AxisId, k < n → ¬ AxisRecordFails image k) →
        (judgeImage image).1 = .axis n.val) ∧
      ((∀ n : AxisId, ¬ AxisRecordFails image n) →
        (∀ n : PairId, PairRecordFails image n → (∀ k : PairId, k < n → ¬ PairRecordFails image k) →
          (judgeImage image).1 = .pair n.val) ∧
        ((∀ n : PairId, ¬ PairRecordFails image n) →
          (judgeImage image).1 =
            .loaded ((List.finRange 48).filter (fun n => decide ((imageAxis image n).present = 1))).length
              ((List.finRange 32).filter (fun n => decide (imagePair image n 0 = 1))).length ∧
          (∀ n : AxisId, (judgeImage image).2.axes[n.val]? =
            some (if (imageAxis image n).present = 1 then some (rawConfig (imageAxis image n)) else none)) ∧
          (judgeImage image).2.axes.length = 48 ∧ (judgeImage image).2.pairs.length = 32 ∧
          (∀ n : PairId, imagePair image n 0 = 0 → (judgeImage image).2.pairs[n.val]? = some none) ∧
          ∀ (n : PairId) (u l : AxisId), imagePair image n 0 = 1 → u.val = (imagePair image n 1).toNat →
            l.val = (imagePair image n 2).toNat → (judgeImage image).2.pairs[n.val]? =
              some (some ⟨u, l, (imagePair image n 3 ++ imagePair image n 4).toNat, none⟩)))) ∧
    ((judgeImage image).1.state ≠ .loaded → (judgeImage image).2 = ⟨[], []⟩)

/-- IMAGE_LOAD_COMPLETION installs what the image holds, each present axis OFFLINE with a new station entry and each
defined pair in its slot, or nothing; the state takes the outcome, and CONFIG_RESULT is offered to the three ports behind
any event still waiting: on ports as reset leaves them it is the first event in every queue and raises every ATTENTION;
all else stays (R177, R179, R188). That the offer is part of this step is log entry 37. -/
def Obligations.the_load_installs_whole_or_nothing : Prop :=
  ∀ (found : List (Nat × Byte)) (s : State), s.loader.state = .loading →
    ∃ t, exec (.imageLoadCompletion found) s = .next t ∧
      t.memory = s.memory.writeAll found ∧
      t.loader = { s.loader with state := (judgeImage t.memory.image).1.state } ∧
      t.messages = { s.messages with posted := [] } ∧
      (∀ p : Console, t.port p = offered
        (s.messages.posted ++ [⟨.configResult (judgeImage t.memory.image).1, s.period⟩]) (s.port p)) ∧
      (∀ p : Console, s.messages.posted = [] → (s.port p).events = [] → (s.port p).filter = 3 →
        t.port p = { s.port p with events := [⟨.configResult (judgeImage t.memory.image).1, s.period⟩] } ∧
        (t.port p).attention = true) ∧
      (∀ a : AxisId, ∀ c, (judgeImage t.memory.image).2.axes.getD a.val none = some c →
        t.axis a = { s.axis a with config := some c, state := .offline } ∧
        t.station a = some (StationEntry.new c.station)) ∧
      (∀ a : AxisId, (judgeImage t.memory.image).2.axes.getD a.val none = none →
        t.axis a = s.axis a ∧ t.station a = s.station a) ∧
      (∀ n : PairId, t.pairs.get n = ((judgeImage t.memory.image).2.pairs.getD n.val none).or (s.pairs.get n)) ∧
      ((judgeImage t.memory.image).1.state ≠ .loaded → t.axes = s.axes ∧ t.stations = s.stations ∧ t.pairs = s.pairs) ∧
      { t with memory := s.memory, loader := s.loader, messages := s.messages, axes := s.axes,
               stations := s.stations, pairs := s.pairs, ports := s.ports } = s

/-- The image that SAVE IMAGE forms from a lawful configuration passes every test of the load and gives back every axis
configuration and every pair, no field dropped (R186, R187, R197, R198). -/
def Obligations.a_saved_image_loads_back_whole : Prop :=
  ∀ s : State, ConfigurationLawful s →
    (formImage s).length = Config.imageSize ∧
    judgeImage (formImage s) =
      (.loaded ((List.finRange 48).filter (fun a => (s.axis a).config.isSome)).length
          ((List.finRange 32).filter (fun n => (s.pairs.get n).isSome)).length,
        ⟨(List.finRange 48).map (fun a => (s.axis a).config),
          (List.finRange 32).map (fun n => (s.pairs.get n).map (fun pr => { pr with lastGap := none }))⟩)

/-- SAVE IMAGE sets the flag with one snapshot of the configuration, and is refused BUSY while a save is in progress; while
it is, every write of the configuration and MASTER CLEAR is refused BUSY and changes nothing (R16, R17, R145, R146, R183,
R189). -/
def Obligations.a_save_forms_one_snapshot_and_holds_it : Prop :=
  (∀ (p : Console) (tag : Byte) (s : State), Taken s p (.saveImage p tag) →
    (s.loader.save = none →
      exec (.saveImage p tag) s = .next
        (answered p { s with loader := { s.loader with save := some ⟨p, formImage s⟩ } } [] ⟨0x56, tag, .ok, []⟩)) ∧
    (s.loader.save ≠ none → exec (.saveImage p tag) s = .next (answered p s [] ⟨0x56, tag, .busy, []⟩))) ∧
  ∀ (p : Console) (tag : Byte) (s : State), s.loader.save ≠ none →
    (∀ axis config, Taken s p (.putAxis p tag axis config) → (axisOf axis).isSome = true →
      exec (.putAxis p tag axis config) s = .next (answered p s [] ⟨0x30, tag, .busy, []⟩)) ∧
    (∀ axis, Taken s p (.putAxisRemove p tag axis) → (axisOf axis).isSome = true →
      exec (.putAxisRemove p tag axis) s = .next (answered p s [] ⟨0x30, tag, .busy, []⟩)) ∧
    (∀ pair upper lower gap, Taken s p (.putPair p tag pair upper lower gap) → (pairOf pair).isSome = true →
      exec (.putPair p tag pair upper lower gap) s = .next (answered p s [] ⟨0x34, tag, .busy, []⟩)) ∧
    (∀ pair, Taken s p (.dropPair p tag pair) → (pairOf pair).isSome = true →
      exec (.dropPair p tag pair) s = .next (answered p s [] ⟨0x35, tag, .busy, []⟩)) ∧
    (Taken s p (.masterClear p tag) →
      exec (.masterClear p tag) s = .next (answered p s [] ⟨0x55, tag, .busy, []⟩))

/-- SAVE_COMPLETION: the flag is cleared; when the memory reads back as the image formed the state is LOADED and SAVE_DONE
is posted, else ERROR and SAVE_FAILED with the part of the first difference; with every cell reading back as written the
save succeeds (R190). -/
def Obligations.a_save_is_proved_by_its_read_back : Prop :=
  ∀ (bad : List (Nat × Byte)) (job : SaveJob) (s : State),
    s.loader.save = some job → job.image.length = Config.imageSize → job.image.take 2 = [0x4C, 0x43] →
    Memory.wf s.memory = true →
      (((s.memory.writeAll (saveWrites job.image)).writeAll bad).image = job.image →
        exec (.saveCompletion bad) s = .next
          ({ s with memory := (s.memory.writeAll (saveWrites job.image)).writeAll bad,
                    loader := ⟨.loaded, none⟩ } |>.emit (.saveDone job.console))) ∧
      (∀ i, i < Config.imageSize →
        ((s.memory.writeAll (saveWrites job.image)).writeAll bad).image[i]? ≠ job.image[i]? →
        (∀ k, k < i → ((s.memory.writeAll (saveWrites job.image)).writeAll bad).image[k]? = job.image[k]?) →
        exec (.saveCompletion bad) s = .next
          ({ s with memory := (s.memory.writeAll (saveWrites job.image)).writeAll bad,
                    loader := ⟨.error, none⟩ } |>.emit (.saveFailed (imagePart i) job.console))) ∧
      (s.memory.writeAll (saveWrites job.image)).image = job.image

/-! ### The period start and motion (Chapter 6, R176) -/

/-- PERIOD_START: the count increases before any block's work, the work of the blocks becomes due (a context's, a stop
step's, a TIMED count's, the round's), each running outage accumulator increases by 1 up to 65535, and all else stays
(R77, R100, R153, R163, R176; the due marks are log entry 6). -/
def Obligations.a_period_start_counts_and_begins_the_work : Prop :=
  ∀ s : State, ∃ t, exec .periodStart s = .next t ∧
    t.period = s.period + 1 ∧
    t.link = { s.link with round := some 0 } ∧
    (∀ l : LaneId, t.lane l = { s.lane l with
      followDue := decide ((s.lane l).state = .follow ∧ (s.lane l).followKind = some .timed) }) ∧
    (∀ l : LaneId, t.context l = (s.context l).map (fun c => { c with due := true })) ∧
    (∀ a : AxisId, t.stop a = (s.stop a).map (fun r => { r with due := true })) ∧
    (∀ a : AxisId, t.station a =
      (s.station a).map (fun e => { e with outage := e.outage.map (fun n => min (n + 1) 65535) })) ∧
    { t with period := s.period, link := s.link, lanes := s.lanes, contexts := s.contexts, stops := s.stops,
             stations := s.stations } = s

/-- MOTION_GENERATOR_WORK of a RUNNING lane: the rate slews by at most 2, the profile time advances by it to at most
256 × T, every MOVING member that has not arrived gets the setpoint of its trapezoid with the old one as its previous
setpoint, each such write with the gap check and trips of moveSetpoint, in claim-set order; the context records the
member's time as its last evaluation, a member at its span's end asks to arrive, the end of the profile is reported, and
nothing else changes (R105, R106, R107, R108, R112, R113, R147). -/
def Obligations.a_running_lane_is_advanced_along_its_plan : Prop :=
  ∀ (l : LaneId) (s : State) (c : MotionContext) (plan : PlanRecord),
    (s.lane l).state = .running → (s.lane l).plan = some plan → s.context l = some c → c.due = true →
    ((plan.members.filter (fun m => decide (m.distance ≠ 0))).map (·.axis)).Nodup →
    ∃ (t u : State) (rate time : Nat) (evaluated : List PlanMember), exec (.motionGeneratorWork l) s = .next t ∧
      ((s.lane l).requestedRate ≤ (s.lane l).effectiveRate + 2 ∧
          (s.lane l).effectiveRate ≤ (s.lane l).requestedRate + 2 → rate = (s.lane l).requestedRate) ∧
      ((s.lane l).effectiveRate + 2 < (s.lane l).requestedRate → rate = (s.lane l).effectiveRate + 2) ∧
      ((s.lane l).requestedRate + 2 < (s.lane l).effectiveRate → rate + 2 = (s.lane l).effectiveRate) ∧
      time = min (c.profileTime + rate) (256 * plan.duration) ∧
      evaluated = plan.members.filter (fun m => decide
        (m.distance ≠ 0 ∧ (s.axis m.axis).state = .moving ∧ (s.axis m.axis).arriving = false)) ∧
      u = evaluated.foldl (fun v m => moveSetpoint m.axis
          (m.position (covered m.cruise m.distance plan.ramp m.span ((time : Int) - 256 * (m.delay : Int)))) v)
        (s.updLane l (fun ln => { ln with effectiveRate := rate })) ∧
      { t with axes := u.axes, contexts := u.contexts } = u ∧
      t.contexts = s.contexts.set l (some
        { profileTime := time
          releaseCount := c.releaseCount
          members := c.members.map (fun x =>
            match evaluated.find? (fun m => decide (m.axis = x.axis)) with
            | some m => { x with lastEval := some ((time : Int) - 256 * (m.delay : Int)) }
            | none => x)
          expiry := c.expiry
          profileEnd := c.profileEnd || decide (time = 256 * plan.duration)
          due := false }) ∧
      t.lane l = { s.lane l with effectiveRate := rate, inbox := (t.lane l).inbox } ∧
      (∀ m ∈ evaluated, t.axis m.axis = { s.axis m.axis with
        previous := (s.axis m.axis).setpoint
        setpoint := some (m.position
          (covered m.cruise m.distance plan.ramp m.span ((time : Int) - 256 * (m.delay : Int))))
        arriving := decide (((256 * m.span : Nat) : Int) ≤ (time : Int) - 256 * (m.delay : Int)) }) ∧
      (∀ a : AxisId, (∀ m ∈ evaluated, m.axis ≠ a) → t.axis a = s.axis a) ∧
      (∀ k : LaneId, k ≠ l → t.lane k = { s.lane k with inbox := (t.lane k).inbox }) ∧
      { t with lanes := s.lanes, contexts := s.contexts, axes := s.axes, pairs := s.pairs,
               messages := s.messages } = s

/-- MOTION_GENERATOR_WORK elsewhere: a RELEASING lane's release count increases by 1 and at 200 the expiry is reported
with the members whose marks are clear; a STOPPING lane's profile time is frozen (R100, R103, R116). That work which is
not due, having been done at this period start, changes nothing is log entries 1 and 6. -/
def Obligations.a_releasing_lane_counts_to_its_timeout : Prop :=
  ∀ (l : LaneId) (s : State) (c : MotionContext), s.context l = some c →
    (c.due = true → (s.lane l).state = .releasing → c.releaseCount < 199 →
      exec (.motionGeneratorWork l) s = .next
        (s.setContext l (some { c with releaseCount := c.releaseCount + 1, due := false }))) ∧
    (c.due = true → (s.lane l).state = .releasing → c.releaseCount = 199 →
      c.members.any (fun m => !m.tracking) = true →
      exec (.motionGeneratorWork l) s = .next (s.setContext l (some { c with
        releaseCount := 200, due := false
        expiry := some ((c.members.filter (fun m => !m.tracking)).map (·.axis)) }))) ∧
    (c.due = true → (s.lane l).state = .stopping →
      exec (.motionGeneratorWork l) s = .next (s.setContext l (some { c with due := false }))) ∧
    (c.due = false → exec (.motionGeneratorWork l) s = .next s)

/-- Table 6-4, region by region, for a cruise velocity the plan can give: the distance covered is 0 in the delay; in the
ramp-up floor(v × sr² / (2 × R × 65536)); in the cruise floor(v × R / 2) + floor(v × (sr − Rr) / 256); in the ramp-down d
less floor(v × (Sr − sr)² / (2 × R × 65536)), which is no more than d; and d from the end of the span on. It lies in 0..d
and never decreases (R109, R110). -/
def Obligations.the_distance_covered_never_turns_back : Prop :=
  ∀ v d r span : Nat, 0 < r → 2 * r ≤ span → v * (span - r) ≤ d →
    (∀ sr : Int, sr ≤ 0 → covered v d r span sr = 0) ∧
    (∀ sr : Nat, 0 < sr → sr ≤ 256 * r → covered v d r span sr = v * (sr * sr) / (2 * r * 65536)) ∧
    (∀ sr : Nat, 256 * r < sr → sr ≤ 256 * span - 256 * r →
      covered v d r span sr = v * r / 2 + v * (sr - 256 * r) / 256) ∧
    (∀ sr : Nat, 256 * span - 256 * r < sr → sr < 256 * span →
      covered v d r span sr + v * ((256 * span - sr) * (256 * span - sr)) / (2 * r * 65536) = d) ∧
    (∀ sr : Int, ((256 * span : Nat) : Int) ≤ sr → covered v d r span sr = d) ∧
    (∀ sr : Int, covered v d r span sr ≤ d) ∧
    ∀ x y : Int, x ≤ y → covered v d r span x ≤ covered v d r span y

/-- The planning arithmetic gives every moving member a span of at least two ramps that ends at T, a cruise velocity no
higher than its capped limit, and ramps no longer than its distance allows (R90 to R94). -/
def Obligations.a_planned_member_obeys_its_limits : Prop :=
  ∀ (j : PlanJob) (m : MemberInput), m ∈ j.members → m.distance ≠ 0 → 10 ≤ j.rs → 10 ≤ m.vmax → 1 ≤ m.cap →
    m.rampFloor ≤ j.ramp ∧ j.rs ≤ j.ramp ∧ j.tn ≤ j.duration ∧
    m.delay + (planMember j.ramp j.duration m).span = j.duration ∧
    2 * j.ramp ≤ (planMember j.ramp j.duration m).span ∧
    (planMember j.ramp j.duration m).cruise ≤ m.vmax * 65536 * m.cap / 20000 ∧
    (planMember j.ramp j.duration m).cruise * ((planMember j.ramp j.duration m).span - j.ramp) ≤ m.distance

/-- STOP_TRAJECTORY_STEP: the index increases, the setpoint moves in the record's direction by floor(v × (Rf − j) / Rf),
clamped at the soft limit with one TARGET_CLIPPED for the trajectory posted before the write, the write is the Motion
Generator's with its gap check, and at the last index the axis is REST without a record and its STOPPING lane makes its
end test (R71, R117, R118, R120, R147). A step already made at this period start is not made again (log entries 1 and
6). -/
def Obligations.a_stop_step_decelerates_inside_the_limits : Prop :=
  ∀ (a : AxisId) (s : State) (r : StopRecord) (cfg : AxisConfig) (v : Nat),
    s.stop a = some r → (s.axis a).config = some cfg → (s.axis a).setpoint = some v →
    (r.due = false → exec (.stopTrajectoryStep a) s = .next s) ∧
    (r.due = true →
      ∃ (t u : State) (w movement : Nat) (clamps : Bool), exec (.stopTrajectoryStep a) s = .next t ∧
        movement = r.velocity * (r.rampFloor - (r.index + 1)) / r.rampFloor ∧
        (r.direction = .up → w = min (v + movement) (cfg.high * 65536) ∧
          clamps = decide (cfg.high * 65536 < v + movement)) ∧
        (r.direction = .down → w = max (v - movement) (cfg.low * 65536) ∧
          clamps = decide (v < cfg.low * 65536 + movement)) ∧
        (r.direction = .none → w = v ∧ clamps = false) ∧
        u = moveSetpoint a w (State.setStop
          (emitAll (if clamps = true ∧ r.posted = false then
              [.stopClipped a (s.axis a).owner (if r.direction = .down then cfg.low else cfg.high)] else []) s) a
          (some { r with index := r.index + 1, due := false, posted := r.posted || clamps })) ∧
        (r.index + 1 < r.rampFloor → t = u) ∧
        (r.rampFloor ≤ r.index + 1 →
          ∃ q, q = { u with
              axes := u.axes.modify a (fun ax => { ax with state := .rest, arriving := false })
              stops := u.stops.set a none } ∧
            (∀ l, (s.axis a).owner = some l → (s.lane l).state = .stopping → EndTest l q t) ∧
            ((∀ l, (s.axis a).owner = some l → (s.lane l).state ≠ .stopping) → t = q)) ∧
        (t.axis a).setpoint = some w ∧ (t.axis a).previous = some v ∧
        (∀ b : AxisId, b ≠ a → t.axis b = s.axis b ∧ t.stop b = s.stop b) ∧
        (∀ k : LaneId, (s.axis a).owner ≠ some k →
          t.context k = s.context k ∧ t.lane k = { s.lane k with inbox := (t.lane k).inbox }) ∧
        { t with axes := s.axes, stops := s.stops, lanes := s.lanes, contexts := s.contexts, pairs := s.pairs,
                 messages := s.messages } = s)

/-- ARRIVAL: a MOVING axis whose arrival request is outstanding becomes REST where it stands and stays owned, any other
keeps its state. TRACKING_MARK: the oldest reply handed on for the axis sets its member's mark when it carries TRACKING
and answers a FOLLOW frame built since the member entered MOVING, while no release timeout has been reported, and otherwise
leaves every mark as it is. Nothing else changes (R8, R10, R102, R103, R112). -/
def Obligations.arrivals_and_tracking_marks_are_taken : Prop :=
  (∀ (a : AxisId) (s : State), (s.axis a).arriving = true →
    ((s.axis a).state = .moving →
      exec (.arrival a) s = .next (s.updAxis a (fun ax => { ax with state := .rest, arriving := false }))) ∧
    ((s.axis a).state ≠ .moving →
      exec (.arrival a) s = .next (s.updAxis a (fun ax => { ax with arriving := false })))) ∧
  ∀ (a : AxisId) (s : State) (n : MarkNotice) (l : LaneId) (c : MotionContext),
    s.messages.markNotices.find? (fun x => decide (x.axis = a)) = some n →
    (s.axis a).owner = some l → s.context l = some c →
    (c.expiry = none → n.tracking = true → n.mode = .follow → n.sinceMoving = true →
      exec (.trackingMark a) s = .next
        { s with
          messages := { s.messages with markNotices := s.messages.markNotices.erase n }
          contexts := s.contexts.set l (some { c with
            members := c.members.map (fun m : ContextMember => if m.axis = a then { m with tracking := true } else m) }) }) ∧
    ((c.expiry ≠ none ∨ ¬ (n.tracking = true ∧ n.mode = .follow ∧ n.sinceMoving = true)) →
      exec (.trackingMark a) s = .next
        { s with messages := { s.messages with markNotices := s.messages.markNotices.erase n } })

/-! ### Lanes (Chapters 2 and 4) -/

/-- PLAN_RESULT with an OK plan: the record is stored, a context made, each moving member at REST starts at its setpoint,
and the frame it was last sent, with the replies to that frame still to be marked, counts as built before it entered MOVING;
LANE_STATE and then one TARGET_CLIPPED for each CLIPPED member are posted, and a plan with no moving member goes straight
on to RUNNING (R7, R65, R99, R102). That the TARGET_CLIPPED events stand in claim-set order, and before that last LANE_STATE, is
log entry 29. -/
def Obligations.an_ok_plan_releases_its_members : Prop :=
  ∀ (l : LaneId) (s : State) (plan : PlanRecord),
    (s.lane l).state = .planning → (s.lane l).planResult = some (.ok plan) →
    ∃ t, exec (.planResult l) s = .next t ∧
      t.lane l = { s.lane l with
        state := if ∀ m ∈ plan.members, m.distance = 0 then .running else .releasing
        effectiveRate := if ∀ m ∈ plan.members, m.distance = 0 then (s.lane l).requestedRate
          else (s.lane l).effectiveRate
        plan := some plan, planResult := none } ∧
      t.context l = some
        { profileTime := 0, releaseCount := 0
          members := (plan.members.filter (fun m => decide (m.distance ≠ 0))).map (fun m => ⟨m.axis, false, none⟩)
          expiry := none, profileEnd := false, due := false } ∧
      (∀ a : AxisId, (∃ m ∈ plan.members, m.distance ≠ 0 ∧ m.axis = a) → (s.axis a).state = .rest →
        t.axis a = { s.axis a with state := .moving, previous := (s.axis a).setpoint, arriving := false } ∧
        t.station a = (s.station a).map (fun e =>
          { e with frame := e.frame.map (fun f => { f with sinceMoving := false }) })) ∧
      (∀ a : AxisId, ((∀ m ∈ plan.members, m.axis = a → m.distance = 0) ∨ (s.axis a).state ≠ .rest) →
        t.axis a = s.axis a ∧ t.station a = s.station a) ∧
      t.messages = { s.messages with
        markNotices := s.messages.markNotices.map (fun n =>
          if (∃ m ∈ plan.members, m.distance ≠ 0 ∧ m.axis = n.axis) ∧ (s.axis n.axis).state = .rest then
            { n with sinceMoving := false } else n)
        posted := (emitAll
        ([.laneState l .planning .releasing (s.lane l).haltCause] ++
          (plan.members.filter (fun m => m.clipped)).map
            (fun m => .targetClipped m.axis l (askedTarget s l m.axis) m.target) ++
          (if ∀ m ∈ plan.members, m.distance = 0 then [.laneState l .releasing .running (s.lane l).haltCause] else []))
        s).messages.posted } ∧
      (∀ k : LaneId, k ≠ l → t.lane k = s.lane k ∧ t.context k = s.context k) ∧
      { t with lanes := s.lanes, contexts := s.contexts, axes := s.axes, stations := s.stations,
               messages := s.messages } = s

/-- PLAN_RESULT with a failed or void plan: PLAN_VOID with its reason, then a fresh start gives its axes back and is READY
and a resume keeps them and is HELD, the halt cause as it was and the hold latch clear (R66). -/
def Obligations.a_failed_plan_stands_the_lane_down : Prop :=
  ∀ (l : LaneId) (s : State) (r : PlanResult) (reason : VoidReason),
    (s.lane l).state = .planning → (s.lane l).planResult = some r →
    ((∃ a, r = .void a ∧ reason = .void a) ∨ (r = .tooLong ∧ reason = .tooLong) ∨
      ∃ n, r = .interlock n ∧ reason = .interlock n) →
    ((s.lane l).resume = false →
      exec (.planResult l) s = .next (emitAll
        [.planVoid l reason, .laneState l .planning .ready (s.lane l).haltCause]
        { s with
          axes := disowned l s.axes
          lanes := s.lanes.modify l (fun ln => { ln with
            state := .ready, planResult := none, holdLatch := false, plan := none, claimSet := [] }) })) ∧
    ((s.lane l).resume = true →
      exec (.planResult l) s = .next (emitAll
        [.planVoid l reason, .laneState l .planning .held (s.lane l).haltCause]
        (s.updLane l (fun ln => { ln with state := .held, planResult := none, holdLatch := false }))))

/-- RELEASE_END: once every moving member's mark is set the lane enters RUNNING with its effective rate at the requested
rate, and before that it stays as it is (R68, R104). -/
def Obligations.a_release_ends_when_every_member_tracks : Prop :=
  ∀ (l : LaneId) (s : State) (c : MotionContext),
    (s.lane l).state = .releasing → s.context l = some c →
    ((∀ m ∈ c.members, m.tracking = true) →
      exec (.releaseEnd l) s = .next (emitAll [.laneState l .releasing .running (s.lane l).haltCause]
        (s.updLane l (fun ln => { ln with state := .running, effectiveRate := ln.requestedRate })))) ∧
    ((∃ m ∈ c.members, m.tracking = false) → exec (.releaseEnd l) s = .next s)

/-- RELEASE_TIMEOUT: each reported member still fit for it is FAULTED with BRAKE_TIMEOUT, with its AXIS_FAULT posted before the
lane's LANE_STATE and its notice sent to its owner; every other MOVING member is REST; the halt cause is FAULT with the
first reported one that is then FAULTED; a fresh start is READY without its axes and its plan record, and a resume is HELD
with them and the profile time of the release, which is 0, frozen in the record; no setpoint changes (R7, R10, R68, R103,
R120). That this is one step is log entry 20; the halt cause where every reported member is OFFLINE is log entry 30; the
fault on a reported member at REST is log entry 32; the order of the faults and of their AXIS_FAULT events, that of the
reported list, is log entry 38. -/
def Obligations.a_release_timeout_faults_the_untracked : Prop :=
  ∀ (l : LaneId) (s : State) (c : MotionContext) (a : AxisId) (rest : List AxisId),
    (s.lane l).state = .releasing → s.context l = some c → c.expiry = some (a :: rest) →
    ∃ (t : State) (x : AxisId) (hit : List AxisId) (owner : AxisId → Option LaneId) (notices : LaneId → List LaneMessage),
      exec (.releaseTimeout l) s = .next t ∧
      (∀ before b after, a :: rest = before ++ b :: after →
        (∀ y ∈ before, (s.axis y).state = .offline ∨ (s.axis y).state = .unconfigured) →
        (s.axis b).state ≠ .offline → (s.axis b).state ≠ .unconfigured → x = b) ∧
      ((∀ y ∈ a :: rest, (s.axis y).state = .offline ∨ (s.axis y).state = .unconfigured) → x = a) ∧
      hit.Sublist (a :: rest) ∧ hit.Nodup ∧
      (∀ b, b ∈ hit ↔ b ∈ a :: rest ∧ (s.axis b).state ∈ [AxisState.rest, .moving, .stopping]) ∧
      (∀ b, owner b =
        if (s.lane l).resume = false ∧ (s.axis b).owner = some l then none else (s.axis b).owner) ∧
      (∀ k, notices k = (hit.filter (fun b => decide ((s.axis b).owner = some k))).map .fault) ∧
      t.lane l = { s.lane l with
        state := if (s.lane l).resume then .held else .ready
        haltCause := .fault x
        holdLatch := false
        claimSet := if (s.lane l).resume then (s.lane l).claimSet else []
        plan := if (s.lane l).resume then (s.lane l).plan.map (fun p => { p with frozen := c.profileTime }) else none
        inbox := (s.lane l).inbox ++ notices l } ∧
      (∀ k : LaneId, k ≠ l → t.lane k = { s.lane k with inbox := (s.lane k).inbox ++ notices k }) ∧
      t.contexts = s.contexts.set l none ∧
      (∀ b ∈ hit, t.axis b = { s.axis b with state := .faulted .brakeTimeout, arriving := false, owner := owner b } ∧
        t.stop b = none) ∧
      (∀ b : AxisId, b ∉ a :: rest → b ∈ (s.lane l).claimSet → (s.axis b).state = .moving →
        t.axis b = { s.axis b with state := .rest, arriving := false, owner := owner b } ∧ t.stop b = s.stop b) ∧
      (∀ b : AxisId, b ∉ hit → (b ∉ (s.lane l).claimSet ∨ (s.axis b).state ≠ .moving) →
        t.axis b = { s.axis b with owner := owner b } ∧ t.stop b = s.stop b) ∧
      t.messages = (emitAll (hit.map (fun b => .axisFault b .brakeTimeout (s.axis b).owner) ++
        [.laneState l .releasing (if (s.lane l).resume then .held else .ready) (.fault x)]) s).messages ∧
      { t with lanes := s.lanes, contexts := s.contexts, axes := s.axes, stops := s.stops,
               messages := s.messages } = s

/-- STEP_COMPLETION closes the step, resolves the next and chooses the lane's new state: the axes are released, the plan
record and context dropped, the last-completed record written and STEP_DONE posted; the current step and repeat remaining
go on as the completed step's next says, or the sequence ends IDLE with SEQ_END set, BROKEN when its link named an absent
slot; a sequence that goes on takes the hold latch and then the completed step's follow mode: READY, or FOLLOW with its
counter and kind, a TIMED wait of 0 making its automatic GO at once, PLANNING or refused (R50, R52, R63, R74, R75, R76).
The lanes a completion is offered to are those of log entry 16, arrivals outstanding are settled first by log entry 15,
and an automatic GO's claim rests on log entry 21. -/
def Obligations.a_completed_step_is_closed_and_resolved : Prop :=
  ∀ (l : LaneId) (s : State) (c : MotionContext) (st : Step) (cur b : StepRef),
    (s.lane l).state = .running → s.context l = some c → c.profileEnd = true →
    (s.lane l).current = some cur → currentStep s l = some st → (s.lane l).base = some b →
    ∃ (w : State) (clipped : Bool) (done : EventBody) (turn : LaneState → EventBody),
      clipped = (match (s.lane l).plan with | some p => p.members.any (·.clipped) | none => false) ∧
      done = .stepDone l cur (s.lane l).resume clipped ∧
      (∀ x, turn x = .laneState l .running x (s.lane l).haltCause) ∧
      w = { s with
        axes := disowned l (s.axes.mapIdx (fun a ax =>
          if a ∈ (s.lane l).claimSet ∧ ax.state = .moving ∧ ax.arriving = true then
            { ax with state := .rest, arriving := false } else ax))
        contexts := s.contexts.set l none
        lanes := s.lanes.mapIdx (fun k ln =>
          if k = l then { ln with
            claimSet := [], plan := none, lastCompleted := some ⟨cur, s.period, ln.resume, clipped⟩ }
          else if ln.state = .follow ∧ ln.followKind = some (.linked l) then
            { ln with decrements := ln.decrements + 1 }
          else ln) } ∧
      ((cur = .direct ∨ ((∀ n, st.next = some n → s.cues.slots.get n = none) ∧ (s.lane l).repeatRemaining = 0)) →
        exec (.stepCompletion l) s = .next (emitAll
          [done, .seqEnd l (some b) (decide (cur ≠ .direct) && st.next.isSome), turn .idle]
          (w.updLane l (fun ln => { ln with state := .idle, seqEnd := true, holdLatch := false })))) ∧
      ∀ (ref : StepRef) (remaining : Nat) (v : State), cur ≠ .direct →
        ((∃ n, st.next = some n ∧ (s.cues.slots.get n).isSome = true ∧ ref = .numbered n ∧
            remaining = (s.lane l).repeatRemaining) ∨
          ((∀ n, st.next = some n → s.cues.slots.get n = none) ∧ (s.lane l).repeatRemaining ≠ 0 ∧ ref = b ∧
            remaining = if (s.lane l).repeatRemaining = 255 then 255 else (s.lane l).repeatRemaining - 1)) →
        v = w.updLane l (fun ln => { ln with current := some ref, repeatRemaining := remaining }) →
        ((s.lane l).holdLatch = true →
          exec (.stepCompletion l) s = .next (emitAll [done, turn .ready]
            (v.updLane l (fun ln => { ln with state := .ready, holdLatch := false })))) ∧
        ((s.lane l).holdLatch = false → (st.follow = .manual ∨ ∃ n, st.follow = .linked l n) →
          exec (.stepCompletion l) s = .next (emitAll [done, turn .ready]
            (v.updLane l (fun ln => { ln with state := .ready })))) ∧
        (∀ (n : Nat) (kind : FollowKind), (s.lane l).holdLatch = false →
          ((st.follow = .timed n ∧ n ≠ 0 ∧ kind = .timed) ∨
            ∃ m, m ≠ l ∧ st.follow = .linked m n ∧ kind = .linked m) →
          exec (.stepCompletion l) s = .next (emitAll [done, turn .follow]
            (v.updLane l (fun ln => { ln with
              state := .follow, followCounter := n, followKind := some kind, followDue := false
              decrements := 0 })))) ∧
        ∀ (k : Console) (x : State), (s.lane l).holdLatch = false → st.follow = .timed 0 →
          (s.lane l).controller = some k →
          x = emitAll [done, turn .follow] (v.updLane l (fun ln => { ln with
            state := .follow, followCounter := 0, followKind := some .timed, followDue := false
            decrements := 0 })) →
          (firstRefusal x l k = none →
            ∃ u, exec (.stepCompletion l) s = .next (u.emit (.laneState l .follow .planning .none)) ∧
              EntersPlanning l false x u) ∧
          ∀ r, firstRefusal x l k = some r →
            exec (.stepCompletion l) s = .next (emitAll
              [.laneState l .follow .ready (s.lane l).haltCause, .goRefused l r.code r.axis r.lane]
              (x.updLane l (fun ln => { ln with state := .ready })))

/-- FOLLOW_EXPIRY and LINKED_DECREMENT count a wait down: the one by 1 for each period start, the other by 1 for each
completion of the linked lane; a lane not in FOLLOW is left as it is. A wait that reaches 0 makes the lane's automatic GO
with its controller's ENABLE: PLANNING when every check passes, else READY at its current step with GO_REFUSED posted
after the LANE_STATE (R63, R77, R78). That an axis the lane owned and its step does not list becomes unowned is log
entry 21, and a lane in FOLLOW without a controller, which no run reaches, is log entry 28. -/
def Obligations.a_follow_wait_counts_down_to_its_automatic_go : Prop :=
  (∀ (l : LaneId) (s : State),
    ((s.lane l).state = .follow → (s.lane l).followKind = some .timed → (s.lane l).followDue = true →
      1 < (s.lane l).followCounter →
      exec (.followExpiry l) s = .next
        (s.updLane l (fun ln => { ln with followCounter := ln.followCounter - 1, followDue := false }))) ∧
    ((s.lane l).state = .follow → 0 < (s.lane l).decrements → 1 < (s.lane l).followCounter →
      exec (.linkedDecrement l) s = .next
        (s.updLane l (fun ln => { ln with followCounter := ln.followCounter - 1, decrements := ln.decrements - 1 }))) ∧
    ((s.lane l).state ≠ .follow →
      exec (.followExpiry l) s = .next s ∧ exec (.linkedDecrement l) s = .next s)) ∧
  ∀ (l : LaneId) (s : State) (k : Console) (i : Instr),
    (s.lane l).state = .follow → (s.lane l).controller = some k → (s.lane l).followCounter = 1 →
    (i = .followExpiry l ∧ (s.lane l).followKind = some .timed ∧ (s.lane l).followDue = true ∨
      i = .linkedDecrement l ∧ 0 < (s.lane l).decrements) →
    (firstRefusal s l k = none →
      ∃ u, exec i s = .next (u.emit (.laneState l .follow .planning .none)) ∧
        EntersPlanning l false (s.updLane l (fun ln => { ln with followCounter := 0 })) u) ∧
    (∀ r, firstRefusal s l k = some r →
      exec i s = .next (emitAll [.laneState l .follow .ready (s.lane l).haltCause, .goRefused l r.code r.axis r.lane]
        (s.updLane l (fun ln => { ln with
          state := .ready, followCounter := 0, followDue := false, decrements := 0 }))))

/-! ### Halts (Table 7-2) -/

/-- EMERGENCY by the lane's state: a plan is withdrawn and the lane stands down, a lane in RELEASING, RUNNING or STOPPING is
HELD at once with its travelling members REST and their trajectories abandoned, and every other lane keeps its state and
halt cause (R67, R72, R126). -/
def Obligations.the_emergency_brakes_every_lane_in_motion : Prop :=
  ∀ (l : LaneId) (s : State), LaneMessage.emergency ∈ (s.lane l).inbox →
    ((s.lane l).state ∈ [LaneState.idle, .ready, .held, .follow] →
      exec (.emergency l) s = .next
        (s.updLane l (fun ln => { ln with inbox := ln.inbox.erase .emergency }))) ∧
    ((s.lane l).state = .planning → (s.lane l).resume = false →
      exec (.emergency l) s = .next (emitAll [.laneState l .planning .ready .estop]
        { s with
          axes := disowned l s.axes
          planner := { s.planner with withdrawals := s.planner.withdrawals ++ [l] }
          lanes := s.lanes.modify l (fun ln => { ln with
            inbox := ln.inbox.erase .emergency, state := .ready, haltCause := .estop, planResult := none
            holdLatch := false, plan := none, claimSet := [] }) })) ∧
    ((s.lane l).state = .planning → (s.lane l).resume = true →
      exec (.emergency l) s = .next (emitAll [.laneState l .planning .held .estop]
        { s with
          planner := { s.planner with withdrawals := s.planner.withdrawals ++ [l] }
          lanes := s.lanes.modify l (fun ln => { ln with
            inbox := ln.inbox.erase .emergency, state := .held, haltCause := .estop, planResult := none
            holdLatch := false }) })) ∧
    (∀ c, (s.lane l).state ∈ [LaneState.releasing, .running, .stopping] → s.context l = some c →
      exec (.emergency l) s = .next (emitAll [.laneState l (s.lane l).state .held .estop]
        { s with
          axes := s.axes.mapIdx (fun a ax =>
            if a ∈ (s.lane l).claimSet ∧ (ax.state = .moving ∨ ax.state = .stopping) then
              { ax with state := .rest, arriving := false } else ax)
          stops := s.stops.mapIdx (fun a r =>
            if a ∈ (s.lane l).claimSet ∧ ((s.axis a).state = .moving ∨ (s.axis a).state = .stopping) then none else r)
          contexts := s.contexts.set l none
          lanes := s.lanes.modify l (fun ln => { ln with
            inbox := ln.inbox.erase .emergency, state := .held, haltCause := .estop, holdLatch := false
            plan := ln.plan.map (fun p => { p with frozen := c.profileTime }) }) }))

/-- A RUNNING lane takes the ENABLE loss of its controller, a fault on one of its members, a trip of a pair with one of its
members, and a HALT request as controlled halts, each with its LANE_STATE events; the oldest fault notice is the one taken
(R32, R56, R70, R116, R131, R142, R143, R148). That a member whose arrival request is outstanding becomes REST and not
STOPPING is log entry 15; that a notice or a trip sent before a later motion of the lane with the axis, or before the
pair's slot was rewritten, is judged by what it finds is log entries 35 and 36. -/
def Obligations.a_running_lane_takes_a_controlled_stop : Prop :=
  ∀ (l : LaneId) (s : State), (s.lane l).state = .running → (s.context l).isSome = true →
    (∀ c, (s.lane l).controller = some c → LaneMessage.enableLoss c ∈ (s.lane l).inbox →
      ∃ t, exec (.enableHalt l c) s = .next t ∧ ControlledStop l .enable
        (s.updLane l (fun ln => { ln with inbox := ln.inbox.erase (.enableLoss c) })) t ∧
        t.messages = (emitAll (stopEvents l .enable t) s).messages) ∧
    (∀ a before after, (s.axis a).owner = some l → (s.lane l).inbox = before ++ .fault a :: after →
      (∀ b : AxisId, LaneMessage.fault b ∉ before) →
      ∃ t, exec (.faultNotice l a) s = .next t ∧ ControlledStop l (.fault a)
        (s.updLane l (fun ln => { ln with inbox := before ++ after })) t ∧
        t.messages = (emitAll (stopEvents l (.fault a) t) s).messages) ∧
    (∀ n pr, s.pairs.get n = some pr → ((s.axis pr.upper).owner = some l ∨ (s.axis pr.lower).owner = some l) →
      LaneMessage.trip n ∈ (s.lane l).inbox →
      ∃ t, exec (.interlockTrip l n) s = .next t ∧ ControlledStop l (.interlock n)
        (s.updLane l (fun ln => { ln with inbox := ln.inbox.erase (.trip n) })) t ∧
        t.messages = (emitAll (stopEvents l (.interlock n) t) s).messages) ∧
    ∀ p tag lane, laneOf lane = some l → Taken s p (.halt p tag lane) →
      ∃ u es, exec (.halt p tag lane) s = .next
          (answered p u es ⟨0x14, tag, .ok, [(u.lane l).state.code]⟩) ∧
        ControlledStop l .halt s u ∧ u.messages = s.messages ∧ es = stopEvents l .halt u

/-- What reaches a lane outside RUNNING. HALT and the ENABLE loss of its controller end a wait, withdraw a plan, end a release
or change nothing; the ENABLE loss of another console changes nothing; a fault on a member ends a release, finds a
STOPPING lane at its end test and changes nothing elsewhere or for a lane that no longer owns the axis, and only the oldest
notice is taken; an interlock trip changes nothing (R32, R67, R69, R71, R79, R131, R142, R143, R148). That a notice or a
trip is judged by the ownership and the pair it finds is log entries 35 and 36. -/
def Obligations.a_halt_outside_running_acts_by_the_lane_state : Prop :=
  ∀ (l : LaneId) (s : State),
    (∀ p tag lane, laneOf lane = some l → Taken s p (.halt p tag lane) → (s.lane l).state ≠ .running →
      ∃ u es, exec (.halt p tag lane) s = .next (answered p u es ⟨0x14, tag, .ok, [(u.lane l).state.code]⟩) ∧
        HaltedElsewhere l .halt s u es) ∧
    (∀ c, (s.lane l).controller = some c → LaneMessage.enableLoss c ∈ (s.lane l).inbox → (s.lane l).state ≠ .running →
      ∃ u es, exec (.enableHalt l c) s = .next (emitAll es u) ∧
        HaltedElsewhere l .enable (s.updLane l (fun ln => { ln with inbox := ln.inbox.erase (.enableLoss c) })) u es) ∧
    (∀ c, (s.lane l).controller ≠ some c → LaneMessage.enableLoss c ∈ (s.lane l).inbox →
      exec (.enableHalt l c) s = .next (s.updLane l (fun ln => { ln with inbox := ln.inbox.erase (.enableLoss c) }))) ∧
    (∀ a before after, (s.lane l).inbox = before ++ .fault a :: after → (∀ b : AxisId, LaneMessage.fault b ∉ before) →
      ∃ w, w = s.updLane l (fun ln => { ln with inbox := before ++ after }) ∧
        ((s.axis a).owner = some l → (s.lane l).state = .releasing →
          ∃ u es, exec (.faultNotice l a) s = .next (emitAll es u) ∧ HaltedElsewhere l (.fault a) w u es) ∧
        ((s.axis a).owner = some l → (s.lane l).state = .stopping →
          ∃ t, exec (.faultNotice l a) s = .next t ∧ EndTest l w t) ∧
        (((s.axis a).owner ≠ some l ∨ (s.lane l).state ∈ [LaneState.idle, .ready, .planning, .held, .follow]) →
          exec (.faultNotice l a) s = .next w) ∧
        ∀ b : AxisId, b ≠ a → exec (.faultNotice l b) s = .next s) ∧
    ∀ n, LaneMessage.trip n ∈ (s.lane l).inbox →
      ((s.lane l).state ≠ .running ∨
        ∀ pr, s.pairs.get n = some pr → (s.axis pr.upper).owner ≠ some l ∧ (s.axis pr.lower).owner ≠ some l) →
      exec (.interlockTrip l n) s = .next (s.updLane l (fun ln => { ln with inbox := ln.inbox.erase (.trip n) }))

/-- HOLD_ASSERTION: a lane whose hold source asserted sets its hold latch in a motion state, enters READY at once in FOLLOW,
and is otherwise left as it is, as is a lane with another source (R79, R80, R133). -/
def Obligations.a_hold_assertion_acts_by_the_lane_state : Prop :=
  ∀ (l : LaneId) (n : HoldLine) (s : State), LaneMessage.hold n ∈ (s.lane l).inbox →
    ((s.lane l).holdSource = some n → (s.lane l).state ∈ [LaneState.planning, .releasing, .running] →
      exec (.holdAssertion l n) s = .next
        (s.updLane l (fun ln => { ln with inbox := ln.inbox.erase (.hold n), holdLatch := true }))) ∧
    ((s.lane l).holdSource = some n → (s.lane l).state = .follow →
      exec (.holdAssertion l n) s = .next (emitAll [.laneState l .follow .ready (s.lane l).haltCause]
        (s.updLane l (fun ln => { ln with
          inbox := ln.inbox.erase (.hold n), state := .ready, holdLatch := false, followDue := false
          decrements := 0 })))) ∧
    (((s.lane l).holdSource ≠ some n ∨ (s.lane l).state ∈ [LaneState.idle, .ready, .stopping, .held]) →
      exec (.holdAssertion l n) s = .next (s.updLane l (fun ln => { ln with inbox := ln.inbox.erase (.hold n) })))

/-! ### The Group Planner (Chapter 5) -/

/-- PLAN_COMPLETION: the result is VOID with the first member that fails the void check, else TOO_LONG, else INTERLOCK with
the first pair whose end positions break its gap, else OK with the plan record the arithmetic makes of the snapshot; a
withdrawn plan's result is dropped; then the Planner begins the plan of the oldest lane waiting on a new snapshot.
PLAN_WITHDRAWAL: the lane's entry leaves the queue, the others keep their order, and a plan in progress for the lane is
marked withdrawn (R84 to R95, R97, R98). -/
def Obligations.a_plan_completes_with_one_result_or_is_withdrawn : Prop :=
  (∀ (s : State) (j : PlanJob), s.planner.inProgress = some j →
    ∃ t, exec .planCompletion s = .next t ∧
      (j.withdrawn = true → t.lanes = s.lanes) ∧
      (j.withdrawn = false → (s.lane j.lane).state ≠ .planning → t.lanes = s.lanes) ∧
      (j.withdrawn = false → (s.lane j.lane).state = .planning →
        ∃ r, t.lane j.lane = { s.lane j.lane with planResult := some r } ∧
          (∀ m before after, j.members = before ++ m :: after →
            (∀ x ∈ before, ¬ FailsVoidCheck s j.lane x) → FailsVoidCheck s j.lane m → r = .void m.axis) ∧
          ((∀ m ∈ j.members, ¬ FailsVoidCheck s j.lane m) →
            ∃ plan, PlanMade j plan ∧
              (1048575 < plan.duration → r = .tooLong) ∧
              (plan.duration ≤ 1048575 →
                (∀ pr before after, j.pairs = before ++ pr :: after → (∀ x ∈ before, ¬ BreaksGap j x) →
                  BreaksGap j pr → r = .interlock pr.pair) ∧
                ((∀ x ∈ j.pairs, ¬ BreaksGap j x) → r = .ok plan)))) ∧
      (∀ k : LaneId, k ≠ j.lane → t.lane k = s.lane k) ∧
      (s.planner.queue = [] → t.planner = { s.planner with inProgress := none }) ∧
      (∀ l rest, s.planner.queue = l :: rest →
        ∃ k, t.planner = { s.planner with queue := rest, inProgress := some k } ∧ SnapshotTaken s l k) ∧
      { t with planner := s.planner, lanes := s.lanes } = s) ∧
  ∀ (l : LaneId) (s : State), l ∈ s.planner.withdrawals →
    exec (.planWithdrawal l) s = .next
      { s with planner := {
          queue := s.planner.queue.filter (fun m => decide (m ≠ l))
          inProgress := s.planner.inProgress.map (fun j => if j.lane = l then { j with withdrawn := true } else j)
          withdrawals := s.planner.withdrawals.filter (fun m => decide (m ≠ l)) } }

/-! ### Lane requests (Chapters 2 and 4) -/

/-- TAKE is granted to the console of a lane without a controller, or one whose holder's ENABLE is inactive in IDLE, READY,
HELD or STOPPING, and refused OWNED otherwise; YIELD gives a lane up in IDLE, READY and HELD and is refused BUSY elsewhere;
each change posts CONTROLLER and touches the controller alone (R25, R26, R27). That the events of other blocks still
waiting are offered with that CONTROLLER is log entry 5. -/
def Obligations.control_of_a_lane_is_taken_and_yielded : Prop :=
  ∀ (p : Console) (tag lane : Byte) (l : LaneId) (s : State), laneOf lane = some l →
    (Taken s p (.take p tag lane) →
      ((s.lane l).controller = none →
        exec (.take p tag lane) s = .next (answered p (s.updLane l (fun ln => { ln with controller := some p }))
          [.controller l none (some p)] ⟨0x10, tag, .ok, []⟩)) ∧
      ((s.lane l).controller = some p →
        exec (.take p tag lane) s = .next (answered p s [] ⟨0x10, tag, .ok, []⟩)) ∧
      ∀ c, (s.lane l).controller = some c → c ≠ p →
        (s.enabled c = false ∧ (s.lane l).state ∈ [LaneState.idle, .ready, .held, .stopping] →
          exec (.take p tag lane) s = .next (answered p (s.updLane l (fun ln => { ln with controller := some p }))
            [.controller l (some c) (some p)] ⟨0x10, tag, .ok, []⟩)) ∧
        ((s.enabled c = true ∨ (s.lane l).state ∈ [LaneState.planning, .releasing, .running, .follow]) →
          exec (.take p tag lane) s = .next (answered p s [] ⟨0x10, tag, .owned, []⟩))) ∧
    (Taken s p (.yield p tag lane) → (s.lane l).controller = some p →
      ((s.lane l).state ∈ [LaneState.idle, .ready, .held] →
        exec (.yield p tag lane) s = .next (answered p (s.updLane l (fun ln => { ln with controller := none }))
          [.controller l (some p) none] ⟨0x11, tag, .ok, []⟩)) ∧
      ((s.lane l).state ∈ [LaneState.planning, .releasing, .running, .stopping, .follow] →
        exec (.yield p tag lane) s = .next (answered p s [] ⟨0x11, tag, .busy, []⟩)))

/-- LOAD makes a present step the base and current step of a READY lane, a HELD lane giving its axes back first; CLEAR LANE
leaves a lane IDLE without axes; a state that forbids them refuses them, and a step number outside 0..511 is refused first
(R58, R59, R60). -/
def Obligations.a_lane_is_loaded_and_cleared : Prop :=
  ∀ (p : Console) (tag lane : Byte) (l : LaneId) (s : State),
    laneOf lane = some l → (s.lane l).controller = some p →
    (∀ step, Taken s p (.load p tag lane step) → 511 < step.toNat →
      exec (.load p tag lane step) s = .next (answered p s [] ⟨0x12, tag, .badArg, []⟩)) ∧
    (∀ step n, Taken s p (.load p tag lane step) → stepOf step = some n →
      ((s.lane l).state ∈ [LaneState.idle, .ready] → (s.cues.slots.get n).isSome = true →
        exec (.load p tag lane step) s = .next (answered p
          (s.updLane l (fun ln => { ln with
            state := .ready, base := some (.numbered n), current := some (.numbered n)
            repeatRemaining := ln.repeatSetting, seqEnd := false, haltCause := .none }))
          (if (s.lane l).state = .idle then [.laneState l .idle .ready .none] else []) ⟨0x12, tag, .ok, []⟩)) ∧
      ((s.lane l).state = .held → (s.cues.slots.get n).isSome = true →
        exec (.load p tag lane step) s = .next (answered p
          { s with
            axes := disowned l s.axes
            lanes := s.lanes.modify l (fun ln => { ln with
              state := .ready, base := some (.numbered n), current := some (.numbered n)
              repeatRemaining := ln.repeatSetting, seqEnd := false, haltCause := .none, plan := none
              claimSet := [] }) }
          [.laneState l .held .ready .none] ⟨0x12, tag, .ok, []⟩)) ∧
      ((s.lane l).state ∈ [LaneState.planning, .releasing, .running, .stopping, .follow] →
        exec (.load p tag lane step) s = .next (answered p s [] ⟨0x12, tag, .wrongState, []⟩)) ∧
      ((s.lane l).state ∈ [LaneState.idle, .ready, .held] → s.cues.slots.get n = none →
        exec (.load p tag lane step) s = .next (answered p s [] ⟨0x12, tag, .noStep, []⟩))) ∧
    (Taken s p (.clearLane p tag lane) →
      ((s.lane l).state = .idle →
        exec (.clearLane p tag lane) s = .next
          (answered p (s.updLane l (fun ln => { ln with haltCause := .none })) [] ⟨0x15, tag, .ok, []⟩)) ∧
      ((s.lane l).state ∈ [LaneState.ready, .held, .follow] →
        exec (.clearLane p tag lane) s = .next (answered p
          { s with
            axes := disowned l s.axes
            lanes := s.lanes.modify l (fun ln => { ln with
              state := .idle, plan := none, claimSet := [], holdLatch := false, haltCause := .none
              followDue := false, decrements := 0 }) }
          [.laneState l (s.lane l).state .idle .none] ⟨0x15, tag, .ok, []⟩)) ∧
      ((s.lane l).state ∈ [LaneState.planning, .releasing, .running, .stopping] →
        exec (.clearLane p tag lane) s = .next (answered p s [] ⟨0x15, tag, .busy, []⟩)))

/-- SET RATE from the controller stores the value, 256 at most, and answers it; SET REPEAT writes the setting and the
remaining passes alike; SET HOLD LINE writes the hold source, leaves the hold latch as it is and refuses a value above 4
(R29, R30, R31). -/
def Obligations.rate_repeat_and_hold_line_are_set : Prop :=
  (∀ (p : Console) (tag lane : Byte) (l : LaneId) (rate : Half) (s : State),
    laneOf lane = some l → (s.lane l).controller = some p → Taken s p (.setRate p tag lane rate) →
    exec (.setRate p tag lane rate) s = .next (answered p
      (s.updLane l (fun ln => { ln with requestedRate := min rate.toNat 256 })) []
      ⟨0x16, tag, .ok, be16 (min rate.toNat 256)⟩)) ∧
  ∀ (p : Console) (tag lane : Byte) (l : LaneId) (v : Byte) (s : State),
    laneOf lane = some l → (s.lane l).controller = some p →
    (Taken s p (.setRepeat p tag lane v) →
      exec (.setRepeat p tag lane v) s = .next (answered p
        (s.updLane l (fun ln => { ln with repeatSetting := v.toNat, repeatRemaining := v.toNat })) []
        ⟨0x17, tag, .ok, []⟩)) ∧
    (Taken s p (.setHoldLine p tag lane v) →
      (v = 0 → exec (.setHoldLine p tag lane v) s = .next (answered p
        (s.updLane l (fun ln => { ln with holdSource := none })) [] ⟨0x18, tag, .ok, []⟩)) ∧
      (∀ n : HoldLine, v.toNat = n.val + 1 → exec (.setHoldLine p tag lane v) s = .next (answered p
        (s.updLane l (fun ln => { ln with holdSource := some n })) [] ⟨0x18, tag, .ok, []⟩)) ∧
      (4 < v.toNat → exec (.setHoldLine p tag lane v) s = .next (answered p s [] ⟨0x18, tag, .badArg, []⟩)))

/-- The claim tests of one axis in their order; an axis the lane already owns passes (R35, Table 2-3). -/
def Obligations.the_claim_tests_are_made_in_order : Prop :=
  ∀ (s : State) (l : LaneId) (a : AxisId),
    ((s.axis a).owner = some l → claimTest s l a = none) ∧
    ((s.axis a).owner ≠ some l →
      (((s.axis a).state = .unconfigured ∨ (s.axis a).state = .offline ∨ ∃ c, (s.axis a).state = .faulted c) →
        claimTest s l a = some ⟨.unavailable, some a, none⟩) ∧
      ((s.axis a).state ∈ [AxisState.rest, .moving, .stopping] →
        ((s.axis a).lock = true → claimTest s l a = some ⟨.locked, some a, none⟩) ∧
        ((s.axis a).lock = false →
          (∀ m, (s.axis a).owner = some m → claimTest s l a = some ⟨.conflict, some a, some m⟩) ∧
          ((s.axis a).owner = none → claimTest s l a = none))))

/-- GO from the controller: a fresh start in READY and FOLLOW and a resume in HELD enter PLANNING when every check passes;
the first check that fails is the reply, a lane in FOLLOW then being READY; every other state refuses it (R61 to R63).
That an axis the lane owned and its step does not list becomes unowned is log entry 21. -/
def Obligations.go_starts_the_current_step : Prop :=
  ∀ (p : Console) (tag lane : Byte) (l : LaneId) (s : State),
    laneOf lane = some l → (s.lane l).controller = some p → Taken s p (.go p tag lane) →
    ((s.lane l).state ∈ [LaneState.ready, .held, .follow] → firstRefusal s l p = none →
      ∃ u, exec (.go p tag lane) s = .next
          (answered p u [.laneState l (s.lane l).state .planning .none] ⟨0x13, tag, .ok, []⟩) ∧
        EntersPlanning l (decide ((s.lane l).state = .held)) s u) ∧
    (∀ r, (s.lane l).state ∈ [LaneState.ready, .held] → firstRefusal s l p = some r →
      exec (.go p tag lane) s = .next (answered p s [] ⟨0x13, tag, r.code, r.answer.data⟩)) ∧
    (∀ r, (s.lane l).state = .follow → firstRefusal s l p = some r →
      exec (.go p tag lane) s = .next (answered p
        (s.updLane l (fun ln => { ln with state := .ready, followDue := false, decrements := 0 }))
        [.laneState l .follow .ready (s.lane l).haltCause] ⟨0x13, tag, r.code, r.answer.data⟩)) ∧
    ((s.lane l).state ∈ [LaneState.idle, .planning, .releasing, .running, .stopping] →
      exec (.go p tag lane) s = .next (answered p s [] ⟨0x13, tag, .wrongState, []⟩))

/-- DIRECT from the controller: move data out of range are refused BAD_ARG in every state; in IDLE and READY it writes the
private step, loads it and starts it with the checks of GO, and a failed check leaves it loaded in a READY lane; either
reply carries the number of caps clamped; any other state refuses it (R43, R46, R49, R58, R64). That an axis the lane owned
and the step does not list becomes unowned is log entry 21; that the count stands behind the code, axis and lane of a failed
check, against the wording of R175, is log entry 39. -/
def Obligations.direct_writes_loads_and_starts : Prop :=
  ∀ (p : Console) (tag lane : Byte) (l : LaneId) (rs tn : Half) (moves : List RawMove) (s : State),
    laneOf lane = some l → (s.lane l).controller = some p → Taken s p (.direct p tag lane rs tn moves) →
    (¬ (10 ≤ rs.toNat ∧ rs.toNat ≤ 400 ∧ movesLawful 4 moves) →
      exec (.direct p tag lane rs tn moves) s = .next (answered p s [] ⟨0x19, tag, .badArg, []⟩)) ∧
    (10 ≤ rs.toNat → rs.toNat ≤ 400 → movesLawful 4 moves →
      ((s.lane l).state ∈ [LaneState.idle, .ready] →
        ∃ (st : Step) (w : State),
          st = ⟨0, rs.toNat, tn.toNat, .manual, none, st.moves⟩ ∧ StoredAs moves st.moves ∧
          w = { s with
            cues := { s.cues with privates := s.cues.privates.set l (some st) }
            lanes := s.lanes.modify l (fun ln => { ln with
              state := .ready, base := some .direct, current := some .direct
              repeatRemaining := ln.repeatSetting, seqEnd := false, haltCause := .none }) } ∧
          (firstRefusal w l p = none →
            ∃ u, exec (.direct p tag lane rs tn moves) s = .next (answered p u
                ((if (s.lane l).state = .idle then [.laneState l .idle .ready .none] else []) ++
                  [.laneState l .ready .planning .none])
                ⟨0x19, tag, .ok, [byteOf (clampedCount moves)]⟩) ∧
              EntersPlanning l false w u) ∧
          (∀ r, firstRefusal w l p = some r →
            exec (.direct p tag lane rs tn moves) s = .next (answered p w
              (if (s.lane l).state = .idle then [.laneState l .idle .ready .none] else [])
              ⟨0x19, tag, r.code, r.answer.data ++ [byteOf (clampedCount moves)]⟩))) ∧
      ((s.lane l).state ∈ [LaneState.planning, .releasing, .running, .stopping, .held, .follow] →
        exec (.direct p tag lane rs tn moves) s = .next (answered p s [] ⟨0x19, tag, .wrongState, []⟩)))

/-- GET LANE, GET AXIS and GET STEP answer with a snapshot, a number or selector out of range is refused BAD_ARG and an absent
step NO_STEP, and nothing changes (R18, R33, R48, 1.7). The bytes of the reports fill the places the manual leaves open by
log entry 12. -/
def Obligations.a_get_request_changes_nothing : Prop :=
  ∀ (p : Console) (tag : Byte) (s : State),
    (∀ lane l, laneOf lane = some l → Taken s p (.getLane p tag lane) →
      exec (.getLane p tag lane) s = .next (answered p s [] ⟨0x1A, tag, .ok, laneReport s l⟩)) ∧
    (∀ axis a, axisOf axis = some a → Taken s p (.getAxis p tag axis) →
      exec (.getAxis p tag axis) s = .next (answered p s [] ⟨0x31, tag, .ok, axisReport s a⟩)) ∧
    (∀ number n st, stepOf number = some n → s.cues.slots.get n = some st → Taken s p (.getStep p tag 0 number) →
      exec (.getStep p tag 0 number) s = .next
        (answered p s [] ⟨0x22, tag, .ok, stepReport n.val st (usersOf s n) s.cues.free⟩)) ∧
    (∀ number n m st, stepOf number = some n → n ≤ m → s.cues.slots.get m = some st →
      (∀ k : StepNo, n ≤ k → k < m → s.cues.slots.get k = none) → Taken s p (.getStep p tag 1 number) →
      exec (.getStep p tag 1 number) s = .next
        (answered p s [] ⟨0x22, tag, .ok, stepReport m.val st (usersOf s m) s.cues.free⟩)) ∧
    (∀ number (l : LaneId) st, number.toNat = l.val → s.cues.privates.get l = some st →
      Taken s p (.getStep p tag 2 number) →
      exec (.getStep p tag 2 number) s = .next
        (answered p s [] ⟨0x22, tag, .ok, stepReport l.val st [] s.cues.free⟩)) ∧
    (∀ number n, stepOf number = some n → s.cues.slots.get n = none → Taken s p (.getStep p tag 0 number) →
      exec (.getStep p tag 0 number) s = .next (answered p s [] ⟨0x22, tag, .noStep, []⟩)) ∧
    (∀ number n, stepOf number = some n → (∀ k : StepNo, n ≤ k → s.cues.slots.get k = none) →
      Taken s p (.getStep p tag 1 number) →
      exec (.getStep p tag 1 number) s = .next (answered p s [] ⟨0x22, tag, .noStep, []⟩)) ∧
    (∀ number (l : LaneId), number.toNat = l.val → s.cues.privates.get l = none → Taken s p (.getStep p tag 2 number) →
      exec (.getStep p tag 2 number) s = .next (answered p s [] ⟨0x22, tag, .noStep, []⟩)) ∧
    (∀ axis, 47 < axis.toNat → Taken s p (.getAxis p tag axis) →
      exec (.getAxis p tag axis) s = .next (answered p s [] ⟨0x31, tag, .badArg, []⟩)) ∧
    ∀ selector number, (2 < selector.toNat ∨ (selector.toNat ≤ 1 ∧ 511 < number.toNat) ∨
        (selector.toNat = 2 ∧ 7 < number.toNat)) → Taken s p (.getStep p tag selector number) →
      exec (.getStep p tag selector number) s = .next (answered p s [] ⟨0x22, tag, .badArg, []⟩)

/-- A lane request with a lane outside 0..7 is refused BAD_ARG, a controller-only one from another console NOT_CONTROLLER,
and neither changes anything (R24, R28). -/
def Obligations.only_the_controller_commands_a_lane : Prop :=
  ∀ (p : Console) (tag lane : Byte) (step rate rs tn : Half) (count source : Byte) (moves : List RawMove) (s : State)
      (i : Instr) (kind : Byte),
    ((i, kind) ∈ ([(.take p tag lane, 0x10), (.yield p tag lane, 0x11), (.load p tag lane step, 0x12),
        (.go p tag lane, 0x13), (.halt p tag lane, 0x14), (.clearLane p tag lane, 0x15),
        (.setRate p tag lane rate, 0x16), (.setRepeat p tag lane count, 0x17), (.setHoldLine p tag lane source, 0x18),
        (.direct p tag lane rs tn moves, 0x19), (.getLane p tag lane, 0x1A)] : List (Instr × Byte)) →
      Taken s p i → laneOf lane = none →
      exec i s = .next (answered p s [] ⟨kind, tag, .badArg, []⟩)) ∧
    ∀ l : LaneId,
      (i, kind) ∈ ([(.yield p tag lane, 0x11), (.load p tag lane step, 0x12), (.go p tag lane, 0x13),
        (.clearLane p tag lane, 0x15), (.setRate p tag lane rate, 0x16), (.setRepeat p tag lane count, 0x17),
        (.setHoldLine p tag lane source, 0x18), (.direct p tag lane rs tn moves, 0x19)] : List (Instr × Byte)) →
      Taken s p i → laneOf lane = some l → (s.lane l).controller ≠ some p →
      exec i s = .next (answered p s [] ⟨kind, tag, .notController, []⟩)

/-! ### The Cue Store (Chapter 3) -/

/-- PUT STEP refuses a step number or a field out of range with BAD_ARG, and writes a whole lawful step into a slot not in use
when the pool holds it; DROP STEP empties a present slot not in use; each answers the free count after it, and a step in
use is refused. A speed cap in 1..100 is stored as sent, one above 100 as 100, and 0 as 1 (R41 to R47). -/
def Obligations.a_step_is_put_and_dropped : Prop :=
  (∀ (p : Console) (tag : Byte) (step : Half) (s : State),
    (∀ body, Taken s p (.putStep p tag step body) → (511 < step.toNat ∨ ¬ stepLawful body) →
      exec (.putStep p tag step body) s = .next (answered p s [] ⟨0x20, tag, .badArg, []⟩)) ∧
    (Taken s p (.dropStep p tag step) → 511 < step.toNat →
      exec (.dropStep p tag step) s = .next (answered p s [] ⟨0x21, tag, .badArg, []⟩))) ∧
  (∀ (p : Console) (tag : Byte) (step : Half) (n : StepNo) (s : State), stepOf step = some n →
    (∀ body, Taken s p (.putStep p tag step body) → stepLawful body →
      ∃ st : Step, st.label = body.label.toNat ∧ st.rs = body.rs.toNat ∧ st.tn = body.tn.toNat ∧
        (body.followKind = 0 → st.follow = .manual) ∧
        (body.followKind = 1 → st.follow = .timed body.followA.toNat) ∧
        (∀ k : LaneId, body.followKind = 2 → k.val = body.followA.toNat → st.follow = .linked k body.followB.toNat) ∧
        st.next.map (·.val) = (if body.next = 0xFFFF then none else some body.next.toNat) ∧
        StoredAs body.moves st.moves ∧
        (inUse s n = true →
          exec (.putStep p tag step body) s = .next (answered p s [] ⟨0x20, tag, .stepInUse, []⟩)) ∧
        (inUse s n = false → s.cues.free + entries (s.cues.slots.get n) < st.moves.length →
          exec (.putStep p tag step body) s = .next (answered p s [] ⟨0x20, tag, .poolFull, []⟩)) ∧
        (inUse s n = false → st.moves.length ≤ s.cues.free + entries (s.cues.slots.get n) →
          exec (.putStep p tag step body) s = .next (answered p
            { s with cues := { s.cues with slots := s.cues.slots.set n (some st) } } []
            ⟨0x20, tag, .ok, be16 (CueStore.free { s.cues with slots := s.cues.slots.set n (some st) }) ++
              [byteOf (clampedCount body.moves)]⟩))) ∧
    (Taken s p (.dropStep p tag step) →
      (s.cues.slots.get n = none →
        exec (.dropStep p tag step) s = .next (answered p s [] ⟨0x21, tag, .noStep, []⟩)) ∧
      ((s.cues.slots.get n).isSome = true → inUse s n = true →
        exec (.dropStep p tag step) s = .next (answered p s [] ⟨0x21, tag, .stepInUse, []⟩)) ∧
      ((s.cues.slots.get n).isSome = true → inUse s n = false →
        exec (.dropStep p tag step) s = .next (answered p
          { s with cues := { s.cues with slots := s.cues.slots.set n none } } []
          ⟨0x21, tag, .ok, be16 (CueStore.free { s.cues with slots := s.cues.slots.set n none })⟩)))) ∧
  ∀ b : Byte,
    (1 ≤ b.toNat ∧ b.toNat ≤ 100 → storedCap b = b.toNat) ∧ (100 < b.toNat → storedCap b = 100) ∧
    (b.toNat = 0 → storedCap b = 1)

/-! ### The Axis Table (Chapter 1) -/

/-- FAULT_REQUEST: REST, MOVING and STOPPING become FAULTED at their setpoint with AXIS_FAULT and a notice to the owner, any
other state takes nothing from it, and the request is used up (R10, R142). -/
def Obligations.a_fault_request_acts_by_the_axis_state : Prop :=
  ∀ (a : AxisId) (cause : FaultCause) (s : State), (a, cause) ∈ s.messages.faultRequests →
    ∃ w, w = { s with messages := { s.messages with
        faultRequests := s.messages.faultRequests.erase (a, cause) } } ∧
      (((s.axis a).state = .unconfigured ∨ (s.axis a).state = .offline ∨ ∃ c, (s.axis a).state = .faulted c) →
        exec (.faultRequest a cause) s = .next w) ∧
      ((s.axis a).state ∈ [AxisState.rest, .moving, .stopping] →
        exec (.faultRequest a cause) s = .next
          (({ w with
            axes := s.axes.modify a (fun ax => { ax with state := .faulted cause, arriving := false })
            stops := s.stops.set a none
            lanes := match (s.axis a).owner with
              | some l => s.lanes.modify l (fun ln => { ln with inbox := ln.inbox ++ [.fault a] })
              | none => s.lanes } : State).emit (.axisFault a cause (s.axis a).owner)))

/-- STATION_ONLINE_NOTICE makes an OFFLINE axis REST, seeded inside its soft limits, and leaves every other as it is;
STATION_LOST_NOTICE makes a REST axis OFFLINE without a setpoint, faults a MOVING or STOPPING one LINK_LOST with its
AXIS_FAULT and its notice to the owner, and leaves every other as it is; the notice is used up, owner, lock, feedback and
load stay, and the last gaps follow a seed and a setpoint that becomes absent (R5, R6, R10, R12, R142, R147, R166).
That an online notice waits for the Supervisor's check and the fault request it may have sent is log entry 18. -/
def Obligations.a_station_notice_acts_by_the_axis_state : Prop :=
  ∀ (a : AxisId) (s : State) (n : StationNotice),
    s.messages.stationNotices.find? (fun x => decide (x.axis = a)) = some n →
    (n.online.isSome = true → ((∃ x ∈ s.messages.replyChecks, x.axis = a) ∨ ∃ x ∈ s.messages.faultRequests, x.1 = a) →
      exec (.stationOnlineNotice a) s = .next s) ∧
    (∀ f c, n.online = some f → (∀ x ∈ s.messages.replyChecks, x.axis ≠ a) →
      (∀ x ∈ s.messages.faultRequests, x.1 ≠ a) → (s.axis a).config = some c →
      ∃ t, exec (.stationOnlineNotice a) s = .next t ∧
        t.messages = { s.messages with stationNotices := s.messages.stationNotices.erase n } ∧
        ((s.axis a).state = .offline → t.axis a = { s.axis a with
          state := .rest, arriving := false
          setpoint := some (if f < c.low * 65536 then c.low * 65536
            else if c.high * 65536 < f then c.high * 65536 else f)
          previous := some (if f < c.low * 65536 then c.low * 65536
            else if c.high * 65536 < f then c.high * 65536 else f) } ∧ GapsFollow a s t) ∧
        ((s.axis a).state ≠ .offline → t.axis a = s.axis a ∧ t.pairs = s.pairs) ∧
        (∀ b : AxisId, b ≠ a → t.axis b = s.axis b) ∧
        { t with axes := s.axes, pairs := s.pairs, messages := s.messages } = s) ∧
    (n.online = none →
      ∃ w, w = { s with messages := { s.messages with stationNotices := s.messages.stationNotices.erase n } } ∧
        ((s.axis a).state = .rest →
          ∃ t, exec (.stationLostNotice a) s = .next t ∧ GapsFollow a s t ∧
            { t with pairs := s.pairs } = w.updAxis a (fun ax =>
              { ax with state := .offline, arriving := false, setpoint := none, previous := none })) ∧
        (((s.axis a).state = .moving ∨ (s.axis a).state = .stopping) →
          exec (.stationLostNotice a) s = .next
            (({ w with
              axes := s.axes.modify a (fun ax => { ax with state := .faulted .linkLost, arriving := false })
              stops := s.stops.set a none
              lanes := match (s.axis a).owner with
                | some l => s.lanes.modify l (fun ln => { ln with inbox := ln.inbox ++ [.fault a] })
                | none => s.lanes } : State).emit (.axisFault a .linkLost (s.axis a).owner))) ∧
        (((s.axis a).state = .unconfigured ∨ (s.axis a).state = .offline ∨ ∃ f, (s.axis a).state = .faulted f) →
          exec (.stationLostNotice a) s = .next w))

/-- PUT AXIS: an axis number outside 0..47 is refused BAD_ARG; then the checks of R16 in order, and the configuration is
replaced whole; a new station address makes the axis OFFLINE with its live values absent, its pairs' last gaps following,
and a new station entry, the same one leaves the axis and its entry as they are (R1, R4, R16, R144, R147, R152, R154, 1.7).
That a present byte other than 0 or 1 is refused at check 3 is log entry 25, and that what the old entry sent and nobody
has taken is dropped is log entry 19. -/
def Obligations.put_axis_writes_a_checked_configuration : Prop :=
  ∀ (p : Console) (tag axis : Byte) (r : RawConfig) (s : State), r.present ≠ 0 → Taken s p (.putAxis p tag axis r) →
    (47 < axis.toNat → exec (.putAxis p tag axis r) s = .next (answered p s [] ⟨0x30, tag, .badArg, []⟩)) ∧
    ∀ a : AxisId, axisOf axis = some a →
    ((s.loader.save ≠ none ∨ (s.axis a).owner ≠ none ∨ (s.axis a).state = .moving ∨ (s.axis a).state = .stopping ∨
        ∃ c, (s.axis a).state = .faulted c) →
      exec (.putAxis p tag axis r) s = .next (answered p s [] ⟨0x30, tag, .busy, []⟩)) ∧
    (s.loader.save = none → (s.axis a).owner = none →
      (s.axis a).state ∈ [AxisState.unconfigured, .offline, .rest] →
      ((r.present ≠ 1 ∨ ¬ configLawful r) →
        exec (.putAxis p tag axis r) s = .next (answered p s [] ⟨0x30, tag, .badArg, []⟩)) ∧
      ((∃ b c, b ≠ a ∧ (s.axis b).config = some c ∧ c.station = r.station.toNat) →
        exec (.putAxis p tag axis r) s = .next (answered p s [] ⟨0x30, tag, .badArg, []⟩)) ∧
      (∀ old v, (s.axis a).config = some old → (s.axis a).setpoint = some v → (s.axis a).state = .rest →
        old.station = r.station.toNat → (v < r.low.toNat * 65536 ∨ r.high.toNat * 65536 < v) →
        exec (.putAxis p tag axis r) s = .next (answered p s [] ⟨0x30, tag, .badArg, []⟩)) ∧
      (r.present = 1 → configLawful r →
        (∀ b c, b ≠ a → (s.axis b).config = some c → c.station ≠ r.station.toNat) →
        (∀ old, (s.axis a).config = some old → old.station = r.station.toNat →
          (∀ v, (s.axis a).setpoint = some v → r.low.toNat * 65536 ≤ v ∧ v ≤ r.high.toNat * 65536) →
          exec (.putAxis p tag axis r) s = .next (answered p
            (s.updAxis a (fun ax => { ax with config := some (rawConfig r) })) [] ⟨0x30, tag, .ok, []⟩)) ∧
        ((∀ old, (s.axis a).config = some old → old.station ≠ r.station.toNat) →
          ∃ u, exec (.putAxis p tag axis r) s = .next (answered p u [] ⟨0x30, tag, .ok, []⟩) ∧
            u.axis a = { s.axis a with
              config := some (rawConfig r), state := .offline, setpoint := none, previous := none, feedback := none
              load := none, loadWarning := false, arriving := false } ∧
            u.station a = some (StationEntry.new r.station.toNat) ∧ EntryDiscarded a s u ∧ GapsFollow a s u ∧
            (∀ b : AxisId, b ≠ a → u.axis b = s.axis b ∧ u.station b = s.station b) ∧
            { u with axes := s.axes, stations := s.stations, pairs := s.pairs, link := s.link,
                     messages := s.messages } = s)))

/-- PUT AXIS with present = no: an unowned axis that is neither MOVING nor STOPPING becomes UNCONFIGURED with its lock kept,
its station entry discarded and its pairs' last gaps absent; otherwise BUSY, and BAD_ARG for an axis number outside 0..47
(R17, R144, R152, R154, 1.7). That what the entry sent and nobody has taken is dropped is log entry 19. -/
def Obligations.an_axis_is_removed_from_service : Prop :=
  ∀ (p : Console) (tag axis : Byte) (s : State), Taken s p (.putAxisRemove p tag axis) →
    (47 < axis.toNat → exec (.putAxisRemove p tag axis) s = .next (answered p s [] ⟨0x30, tag, .badArg, []⟩)) ∧
    ∀ a : AxisId, axisOf axis = some a →
    ((s.loader.save ≠ none ∨ (s.axis a).owner ≠ none ∨ (s.axis a).state = .moving ∨ (s.axis a).state = .stopping) →
      exec (.putAxisRemove p tag axis) s = .next (answered p s [] ⟨0x30, tag, .busy, []⟩)) ∧
    (s.loader.save = none → (s.axis a).owner = none → (s.axis a).state ≠ .moving → (s.axis a).state ≠ .stopping →
      ∃ u, exec (.putAxisRemove p tag axis) s = .next (answered p u [] ⟨0x30, tag, .ok, []⟩) ∧
        u.axis a = { Axis.reset with lock := (s.axis a).lock } ∧ u.station a = none ∧ EntryDiscarded a s u ∧
        (∀ n pr, s.pairs.get n = some pr → (pr.upper = a ∨ pr.lower = a) →
          u.pairs.get n = some { pr with lastGap := none }) ∧
        (∀ n, (∀ pr, s.pairs.get n = some pr → pr.upper ≠ a ∧ pr.lower ≠ a) → u.pairs.get n = s.pairs.get n) ∧
        (∀ b : AxisId, b ≠ a → u.axis b = s.axis b ∧ u.station b = s.station b) ∧
        { u with axes := s.axes, stations := s.stations, pairs := s.pairs, link := s.link,
                 messages := s.messages } = s)

/-- LOCK SET writes the lock flags of the masked axes as one change and leaves the others, and answers all 48 (R15). -/
def Obligations.lock_set_writes_the_masked_flags : Prop :=
  ∀ (p : Console) (tag : Byte) (value mask : BitVec 48) (s : State), Taken s p (.lockSet p tag value mask) →
    ∃ u, exec (.lockSet p tag value mask) s = .next
        (answered p u [] ⟨0x32, tag, .ok, axisSetBytes (lockFlags u)⟩) ∧
      (∀ a : AxisId, u.axis a = { s.axis a with
        lock := if mask.getLsbD a.val then value.getLsbD a.val else (s.axis a).lock }) ∧
      (∀ a : AxisId, (lockFlags u).getLsbD a.val = (u.axis a).lock) ∧
      { u with axes := s.axes } = s

/-- CLEAR FAULT: the checks of R19 in order, then REST, seeded from the last good reply inside the soft limits, with owner,
lock and load-warning flag kept and the last gaps following the seed; BAD_ARG for an axis number outside 0..47 (R12, R19,
R147, 1.7). -/
def Obligations.clear_fault_returns_an_axis_to_rest : Prop :=
  ∀ (p : Console) (tag axis : Byte) (s : State), Taken s p (.clearFault p tag axis) →
    (47 < axis.toNat → exec (.clearFault p tag axis) s = .next (answered p s [] ⟨0x33, tag, .badArg, []⟩)) ∧
    ∀ a : AxisId, axisOf axis = some a →
    ((∀ c, (s.axis a).state ≠ .faulted c) →
      exec (.clearFault p tag axis) s = .next (answered p s [] ⟨0x33, tag, .wrongState, []⟩)) ∧
    ∀ cause, (s.axis a).state = .faulted cause →
      (∀ l, (s.axis a).owner = some l → (s.lane l).state ∈ [LaneState.planning, .releasing, .running] →
        exec (.clearFault p tag axis) s = .next (answered p s [] ⟨0x33, tag, .busy, []⟩)) ∧
      ((∀ l, (s.axis a).owner = some l → (s.lane l).state ∉ [LaneState.planning, .releasing, .running]) →
        (s.online a = false →
          exec (.clearFault p tag axis) s = .next (answered p s [] ⟨0x33, tag, .unavailable, [byteOf a.val]⟩)) ∧
        ∀ e r c, s.station a = some e → e.state = .online → e.lastReply = some r → (s.axis a).config = some c →
          (r.fault = true →
            exec (.clearFault p tag axis) s = .next (answered p s [] ⟨0x33, tag, .unavailable, [byteOf a.val]⟩)) ∧
          (r.fault = false →
            ∃ u, exec (.clearFault p tag axis) s = .next (answered p u [] ⟨0x33, tag, .ok, []⟩) ∧
              u.axis a = { s.axis a with
                state := .rest, arriving := false
                setpoint := some (if r.feedback < c.low * 65536 then c.low * 65536
                  else if c.high * 65536 < r.feedback then c.high * 65536 else r.feedback)
                previous := some (if r.feedback < c.low * 65536 then c.low * 65536
                  else if c.high * 65536 < r.feedback then c.high * 65536 else r.feedback) } ∧
              GapsFollow a s u ∧ (∀ b : AxisId, b ≠ a → u.axis b = s.axis b) ∧
              { u with axes := s.axes, pairs := s.pairs } = s))

/-! ### The Supervisor (Chapter 8) -/

/-- PUT PAIR and DROP PAIR: the checks in order, then the slot is replaced whole, its last gap absent, or emptied (R145,
R146). Which fields of the stored entry PUT PAIR's reply carries is log entry 12. -/
def Obligations.a_pair_is_put_and_dropped : Prop :=
  ∀ (p : Console) (tag pair : Byte) (s : State),
    (∀ upper lower gap, Taken s p (.putPair p tag pair upper lower gap) →
      (31 < pair.toNat →
        exec (.putPair p tag pair upper lower gap) s = .next (answered p s [] ⟨0x34, tag, .badArg, []⟩)) ∧
      ∀ n, pairOf pair = some n →
        (s.loader.save ≠ none →
          exec (.putPair p tag pair upper lower gap) s = .next (answered p s [] ⟨0x34, tag, .busy, []⟩)) ∧
        (s.loader.save = none →
          (47 < upper.toNat ∨ 47 < lower.toNat ∨ upper = lower ∨ 5000 < gap.toNat) →
          exec (.putPair p tag pair upper lower gap) s = .next (answered p s [] ⟨0x34, tag, .badArg, []⟩)) ∧
        ∀ u l, s.loader.save = none → axisOf upper = some u → axisOf lower = some l → u ≠ l → gap.toNat ≤ 5000 →
          (((s.axis u).owner ≠ none ∨ (s.axis l).owner ≠ none ∨ ∃ pr, s.pairs.get n = some pr ∧
              ((s.axis pr.upper).owner ≠ none ∨ (s.axis pr.lower).owner ≠ none)) →
            exec (.putPair p tag pair upper lower gap) s = .next (answered p s [] ⟨0x34, tag, .busy, []⟩)) ∧
          ((s.axis u).owner = none → (s.axis l).owner = none →
            (∀ pr, s.pairs.get n = some pr → (s.axis pr.upper).owner = none ∧ (s.axis pr.lower).owner = none) →
            exec (.putPair p tag pair upper lower gap) s = .next (answered p
              { s with pairs := s.pairs.set n (some ⟨u, l, gap.toNat, none⟩) } []
              ⟨0x34, tag, .ok, [pair, upper, lower] ++ be16 gap.toNat ++
                [if (s.axis u).config.isSome ∧ (s.axis l).config.isSome then 1 else 0]⟩))) ∧
    (Taken s p (.dropPair p tag pair) →
      (31 < pair.toNat → exec (.dropPair p tag pair) s = .next (answered p s [] ⟨0x35, tag, .badArg, []⟩)) ∧
      ∀ n, pairOf pair = some n →
        ((s.loader.save ≠ none ∨ ∃ pr, s.pairs.get n = some pr ∧
            ((s.axis pr.upper).owner ≠ none ∨ (s.axis pr.lower).owner ≠ none)) →
          exec (.dropPair p tag pair) s = .next (answered p s [] ⟨0x35, tag, .busy, []⟩)) ∧
        (s.loader.save = none →
          (∀ pr, s.pairs.get n = some pr → (s.axis pr.upper).owner = none ∧ (s.axis pr.lower).owner = none) →
          exec (.dropPair p tag pair) s = .next
            (answered p { s with pairs := s.pairs.set n none } [] ⟨0x35, tag, .ok, []⟩)))

/-- A write of a setpoint by the Motion Generator, which an evaluation and a stop step make (statements of
MOTION_GENERATOR_WORK and STOP_TRAJECTORY_STEP): every active pair of the axis takes its new gap as its last gap, and a
pair whose gap is below its minimum and shrinking sends a trip to each lane that owns one of its axes, with one INTERLOCK
event for the lanes concerned when one of them is RUNNING and none otherwise; pairs in ascending number, and no other pair
sends anything (R147, R148, R149). -/
def Obligations.a_shrinking_gap_trips_its_pair : Prop :=
  ∀ (a : AxisId) (v : Nat) (s : State),
    ∃ (t : State) (event : PairId → Option EventBody) (trips : PairId → LaneId → Bool),
      t = moveSetpoint a v s ∧
      t.axis a = { s.axis a with previous := (s.axis a).setpoint, setpoint := some v } ∧
      (∀ b : AxisId, b ≠ a → t.axis b = s.axis b) ∧ GapsFollow a s t ∧
      t.messages = (emitAll ((List.finRange 32).filterMap event) s).messages ∧
      (∀ l : LaneId, t.lane l = { s.lane l with
        inbox := (s.lane l).inbox ++ ((List.finRange 32).filter (fun n => trips n l)).map .trip }) ∧
      { t with axes := s.axes, lanes := s.lanes, pairs := s.pairs, messages := s.messages } = s ∧
      (∀ n : PairId, s.pairs.get n = none → event n = none ∧ ∀ l, trips n l = false) ∧
      ∀ (n : PairId) (pr : ClashPair) (shrinks : Prop), s.pairs.get n = some pr →
        (shrinks ↔ (pr.upper = a ∨ pr.lower = a) ∧ (s.axis pr.upper).config ≠ none ∧ (s.axis pr.lower).config ≠ none ∧
          ∃ g h, GapNow t pr (some g) ∧ pr.lastGap = some h ∧ g < (pr.gap : Int) ∧ g < h) →
        (¬ shrinks → event n = none ∧ ∀ l, trips n l = false) ∧
        (shrinks →
          (∀ l, trips n l = true ↔ (s.axis pr.upper).owner = some l ∨ (s.axis pr.lower).owner = some l) ∧
          ((∃ l, trips n l = true ∧ (s.lane l).state = .running) →
            ∃ g lanes, GapNow t pr (some g) ∧ event n = some (.interlock n pr.upper pr.lower g pr.gap a lanes) ∧
              lanes.Pairwise (· < ·) ∧
              ∀ k, k ∈ lanes ↔ trips n k = true ∧ ((s.lane k).state = .running ∨ (s.lane k).state = .stopping)) ∧
          ((∀ l, trips n l = true → (s.lane l).state ≠ .running) → event n = none))

/-- SUPERVISOR_REPLY_CHECK: the oldest reply handed on for the axis is judged by Table 8-1 on the axis as it stands, the
first check that finds a fault sends its cause alone, and a REST axis without a fault has its load-warning flag set, with
LOAD_WARNING when it was clear, or cleared (R136 to R141). -/
def Obligations.a_good_reply_is_judged_in_order : Prop :=
  ∀ (a : AxisId) (s : State) (c : ReplyCheck) (cfg : AxisConfig) (lost far : Prop),
    s.messages.replyChecks.find? (fun x => decide (x.axis = a)) = some c → (s.axis a).config = some cfg →
    (lost ↔ ((s.axis a).state = .moving ∨ (s.axis a).state = .stopping) ∧ c.mode = .follow ∧
      c.reply.tracking = false ∧ trackingMark s a = true) →
    (far ↔ (s.axis a).state ∈ [AxisState.rest, .moving, .stopping] ∧ s.latch = false ∧ c.mode ≠ .identify ∧
      cfg.followLimit * 65536 < ((c.reply.feedback : Int) - (c.setpoint : Int)).natAbs) →
    ∃ (w : State) (faulted : FaultCause → State),
      w = { s with messages := { s.messages with replyChecks := s.messages.replyChecks.erase c } } ∧
      (∀ cause, faulted cause = { s with messages := { s.messages with
        replyChecks := s.messages.replyChecks.erase c
        faultRequests := s.messages.faultRequests ++ [(a, cause)] } }) ∧
      (c.reply.fault = true → exec (.supervisorReplyCheck a) s = .next (faulted .driveFault)) ∧
      (c.reply.fault = false → lost → exec (.supervisorReplyCheck a) s = .next (faulted .lostTracking)) ∧
      (c.reply.fault = false → ¬ lost → far → exec (.supervisorReplyCheck a) s = .next (faulted .following)) ∧
      (c.reply.fault = false → ¬ lost → ¬ far →
        (((s.axis a).state = .moving ∨ (s.axis a).state = .stopping) → s.latch = false →
          (cfg.loadMax < c.reply.load → exec (.supervisorReplyCheck a) s = .next (faulted .loadHigh)) ∧
          (c.reply.load ≤ cfg.loadMax → c.reply.load < cfg.loadMin →
            exec (.supervisorReplyCheck a) s = .next (faulted .loadLow)) ∧
          (c.reply.load ≤ cfg.loadMax → cfg.loadMin ≤ c.reply.load →
            exec (.supervisorReplyCheck a) s = .next w)) ∧
        ((s.axis a).state = .rest → s.latch = false →
          (c.reply.load ≤ cfg.loadMax → cfg.loadMin ≤ c.reply.load →
            exec (.supervisorReplyCheck a) s = .next (w.updAxis a (fun ax => { ax with loadWarning := false }))) ∧
          ((cfg.loadMax < c.reply.load ∨ c.reply.load < cfg.loadMin) →
            exec (.supervisorReplyCheck a) s = .next (emitAll
              (if (s.axis a).loadWarning then []
                else [.loadWarning a c.reply.load (decide (cfg.loadMax < c.reply.load)) (s.axis a).owner])
              (w.updAxis a (fun ax => { ax with loadWarning := true }))))) ∧
        (((s.axis a).state ∉ [AxisState.rest, .moving, .stopping] ∨ s.latch = true) →
          exec (.supervisorReplyCheck a) s = .next w))

/-! ### Stop Logic (Chapter 7) -/

/-- RAW_LEVEL_CHANGE and QUALIFIED_CHANGE: the timer runs while the raw level differs from the qualified one, and when it
ends the qualified level follows and the change is delivered: a STOPN assertion sets a clear latch with its event and an
emergency for every lane, an ENABLE loss and a hold assertion reach every lane, and no other change reaches anything.
E-STOP sets the latch alike and is answered OK with the latch set; CLEAR E-STOP is refused while STOPN is low, changes
nothing on a clear latch, and clears a set one with its event (R121 to R125, R131 to R133). That QUALIFIED_CHANGE
changes nothing while the line's timer is idle is log entry 8. -/
def Obligations.lines_are_qualified_and_the_latch_set_and_cleared : Prop :=
  (∀ s : State,
    (∀ line high, exec (.rawLevelChange line high) s = .next
      { s with lines := s.lines.modify (lineIndex line) (fun ls =>
          ⟨high, ls.qualified, decide (high ≠ ls.qualified)⟩) }) ∧
    (∀ line, (s.lines.get (lineIndex line)).timing = false → exec (.qualifiedChange line) s = .next s) ∧
    ∀ line high, s.lines.get (lineIndex line) = ⟨high, !high, true⟩ →
      ∃ w, w = { s with lines := s.lines.set (lineIndex line) ⟨high, high, false⟩ } ∧
        (line = .stopn → high = false → s.latch = false →
          exec (.qualifiedChange line) s = .next (emitAll [.estopSet none]
            { w with latch := true
                     lanes := w.lanes.map (fun ln => { ln with inbox := ln.inbox ++ [.emergency] }) })) ∧
        (line = .stopn → high = false → s.latch = true → exec (.qualifiedChange line) s = .next w) ∧
        (∀ c, line = .enable c → high = false → exec (.qualifiedChange line) s = .next
          { w with lanes := w.lanes.map (fun ln => { ln with inbox := ln.inbox ++ [.enableLoss c] }) }) ∧
        (∀ n, line = .hold n → high = true → exec (.qualifiedChange line) s = .next
          { w with lanes := w.lanes.map (fun ln => { ln with inbox := ln.inbox ++ [.hold n] }) }) ∧
        ((line = .stopn ∨ ∃ c, line = .enable c) → high = true → exec (.qualifiedChange line) s = .next w) ∧
        ((∃ n, line = .hold n) → high = false → exec (.qualifiedChange line) s = .next w)) ∧
  ∀ (p : Console) (tag : Byte) (s : State),
    (Taken s p (.eStop p tag) →
      (s.latch = false → exec (.eStop p tag) s = .next (answered p
        { s with latch := true
                 lanes := s.lanes.map (fun ln => { ln with inbox := ln.inbox ++ [.emergency] }) }
        [.estopSet (some p)] ⟨0x53, tag, .ok, [1]⟩)) ∧
      (s.latch = true → exec (.eStop p tag) s = .next (answered p s [] ⟨0x53, tag, .ok, [1]⟩))) ∧
    (Taken s p (.clearEStop p tag) →
      (s.qualified .stopn = false →
        exec (.clearEStop p tag) s = .next (answered p s [] ⟨0x54, tag, .stopActive, []⟩)) ∧
      (s.qualified .stopn = true → s.latch = false →
        exec (.clearEStop p tag) s = .next (answered p s [] ⟨0x54, tag, .ok, []⟩)) ∧
      (s.qualified .stopn = true → s.latch = true →
        exec (.clearEStop p tag) s = .next
          (answered p { s with latch := false } [.estopCleared p] ⟨0x54, tag, .ok, []⟩)))

/-! ### The Drive Link (Chapter 9) -/

/-- DRIVE_ROUND: the next present axis is sent one frame, its mode by Table 6-5, its setpoint the axis's or zero for
IDENTIFY, its sequence 0 for a new entry and else one more; the entry keeps what was sent and the slot opens. Past the
last present axis the round ends (R114, R115, R153, R155). That one DRIVE_ROUND is one visit with its whole frame, and does
nothing while a slot is open, is log entry 7. -/
def Obligations.the_round_sends_the_next_axis_its_frame : Prop :=
  ∀ s : State,
    ((s.link.round = none ∨ s.link.slot ≠ none) → exec .driveRound s = .next s) ∧
    ∀ n, s.link.round = some n → s.link.slot = none →
      ((∀ a : AxisId, n ≤ a.val → (s.axis a).config = none) →
        exec .driveRound s = .next { s with link := { s.link with round := none } }) ∧
      ∀ (a : AxisId) (e : StationEntry), n ≤ a.val → (s.axis a).config ≠ none →
        (∀ b : AxisId, n ≤ b.val → b < a → (s.axis b).config = none) → s.station a = some e →
        ∃ (mode : DriveMode) (setpoint : Nat) (sequence : BitVec 4),
          exec .driveRound s = .next { s with
            stations := s.stations.set a (some { e with
              sequence := sequence, frame := some ⟨setpoint, mode, sequence, true⟩ })
            link := ⟨some (a.val + 1), some ⟨a, false⟩, setpointFrame e.address mode sequence setpoint⟩ } ∧
          (e.frame = none → sequence = 0) ∧ (e.frame ≠ none → sequence = e.sequence + 1) ∧
          ((e.state ≠ .online ∨ (s.axis a).state = .offline) → mode = .identify ∧ setpoint = 0) ∧
          (e.state = .online → (s.axis a).state ≠ .offline →
            (∀ v, (s.axis a).setpoint = some v → setpoint = v) ∧
            (s.latch = true → mode = .brake) ∧
            (s.latch = false →
              ((∃ c, (s.axis a).state = .faulted c) → mode = .brake) ∧
              (((s.axis a).state = .moving ∨ (s.axis a).state = .stopping) → mode = .follow) ∧
              ((s.axis a).state = .rest → mode = .hold)))

/-- A slot that ends without a good reply: the latency of a reply that began is kept; the matching counter is increased in
JOINING and ONLINE alone; JOINING falls to OFFLINE and the third failure in a row makes ONLINE LOST, each with its
STATION_STATE, the loss with a notice to the Axis Table; the axis is untouched. A slot whose entry was replaced or discarded
meanwhile ends and its reply changes nothing (R154, R156 to R164). -/
def Obligations.a_failed_reply_is_counted_by_the_station_state : Prop :=
  (∀ (i : Instr) (a : AxisId) (s : State), s.link.slot = some ⟨a, true⟩ →
    (i = .replyWindowExpiry ∨ ∃ latency bytes, i = .statusFrame latency bytes ∧ latency ≤ 500 ∧ bytes ≠ []) →
    exec i s = .next { s with link := { s.link with slot := none } }) ∧
  ∀ (i : Instr) (a : AxisId) (s : State) (e base counted : StationEntry),
    s.link.slot = some ⟨a, false⟩ → s.station a = some e →
    ((i = .replyWindowExpiry ∧ base = e ∧ counted = { base with noReplies := min (e.noReplies + 1) 65535 }) ∨
      (∃ latency bytes, i = .statusFrame latency bytes ∧ latency ≤ 500 ∧ bytes ≠ [] ∧
        base = { e with lastLatency := latency, peakLatency := max e.peakLatency latency } ∧
        ((readStatus (bytes.take 14) = none ∧ counted = { base with crcErrors := min (e.crcErrors + 1) 65535 }) ∨
          ∃ f, readStatus (bytes.take 14) = some f ∧
            (f.address ≠ e.address ∨ ∀ fr, e.frame = some fr → f.echo ≠ fr.sequence.toNat) ∧
            counted = { base with stales := min (e.stales + 1) 65535 }))) →
    ∃ w : StationEntry → State,
      (∀ x, w x = { s with link := { s.link with slot := none }, stations := s.stations.set a (some x) }) ∧
      ((e.state = .offline ∨ e.state = .lost) → exec i s = .next (w base)) ∧
      (e.state = .joining → exec i s = .next (emitAll [.stationState e.address a .joining .offline 0]
        (w { counted with state := .offline, joining := 0 }))) ∧
      (e.state = .online → e.badRun < 2 → exec i s = .next (w { counted with badRun := e.badRun + 1 })) ∧
      (e.state = .online → 2 ≤ e.badRun → ∃ x, x = { counted with
          state := .lost, badRun := 0, drops := min (e.drops + 1) 65535, outage := some 0 } ∧
        exec i s = .next (emitAll [.stationState e.address a .online .lost (min (e.drops + 1) 65535)]
          { (w x) with messages := { s.messages with
              stationNotices := s.messages.stationNotices ++ [⟨a, none⟩] } }))

/-- STATUS_FRAME with a good reply, in the order of R165: the entry takes the latency, the state and the reply; the axis the
feedback and load, and its seed when it is REST under the latch; the Supervisor, the Axis Table at a joining completed and
the Motion Generator for a moving member are each handed what they take; every change of state posts STATION_STATE (R129,
R147, R157, R158, R160 to R166). That steps 1, 2 and 5 of R165 are done within STATUS_FRAME, while what steps 3, 4 and 6
hand on waits for its own command, is log entry 17. -/
def Obligations.a_good_reply_is_taken_and_handed_on : Prop :=
  ∀ (latency : Nat) (bytes : List Byte) (a : AxisId) (s : State) (e : StationEntry) (fr : FrameRecord)
      (f : StatusFrame) (c : AxisConfig),
    s.link.slot = some ⟨a, false⟩ → s.station a = some e → e.frame = some fr → latency ≤ 500 → bytes ≠ [] →
    readStatus (bytes.take 14) = some f → f.address = e.address → f.echo = fr.sequence.toNat →
    (s.axis a).config = some c → (s.axis a).state ≠ .unconfigured →
    ∃ t base seeded, exec (.statusFrame latency bytes) s = .next t ∧
      base = { e with lastLatency := latency, peakLatency := max e.peakLatency latency, lastReply := some f.reply } ∧
      seeded = (if f.reply.feedback < c.low * 65536 then c.low * 65536
        else if c.high * 65536 < f.reply.feedback then c.high * 65536 else f.reply.feedback) ∧
      ((e.state = .offline ∨ e.state = .lost) → t.station a = some { base with state := .joining, joining := 1 }) ∧
      (e.state = .joining → e.joining < 7 → t.station a = some { base with joining := e.joining + 1 }) ∧
      (e.state = .joining → 7 ≤ e.joining → t.station a = some { base with
        state := .online, joining := 0, badRun := 0, outageRecord := e.outage.getD e.outageRecord, outage := none }) ∧
      (e.state = .online → t.station a = some { base with badRun := 0 }) ∧
      t.link = { s.link with slot := none } ∧
      (s.latch = true → (s.axis a).state = .rest → t.axis a = { s.axis a with
        feedback := some f.reply.feedback, load := some f.reply.load, setpoint := some seeded
        previous := some seeded } ∧ GapsFollow a s t) ∧
      (¬ (s.latch = true ∧ (s.axis a).state = .rest) → t.axis a = { s.axis a with
        feedback := some f.reply.feedback, load := some f.reply.load } ∧ t.pairs = s.pairs) ∧
      t.messages = { s.messages with
        replyChecks := s.messages.replyChecks ++ [⟨a, f.reply, fr.setpoint, fr.mode⟩]
        stationNotices := s.messages.stationNotices ++
          (if e.state = .joining ∧ 7 ≤ e.joining then [⟨a, some f.reply.feedback⟩] else [])
        markNotices := s.messages.markNotices ++
          (if movingMember s a then [⟨a, f.reply.tracking, fr.mode, fr.sinceMoving⟩] else [])
        posted := s.messages.posted ++
          (if e.state = .offline ∨ e.state = .lost then
            [⟨.stationState e.address a e.state .joining 0, s.period⟩]
          else if e.state = .joining ∧ 7 ≤ e.joining then
            [⟨.stationState e.address a .joining .online (e.outage.getD e.outageRecord), s.period⟩]
          else []) } ∧
      (∀ b : AxisId, b ≠ a → t.axis b = s.axis b ∧ t.station b = s.station b) ∧
      { t with axes := s.axes, stations := s.stations, pairs := s.pairs, link := s.link,
               messages := s.messages } = s

/-! ### The Console Ports (Chapter 10) -/

/-- GET STATION reports an entry and with the clear option then zeroes its counters and peak latency; POLL reports and clears
the requesting port's overflow and pending-class flags; FETCH takes the 8 oldest events of its own queue; SET FILTER
stores a value in 0..3 and refuses another (R167, R180, R181, R182). The bytes of the reports fill the places the manual
leaves open by log entry 12, and a clear option above 1 is refused before an axis without an entry by log entry 31. -/
def Obligations.a_port_reads_its_reports : Prop :=
  ∀ (p : Console) (tag : Byte) (s : State),
    (∀ axis clear a, axisOf axis = some a → Taken s p (.getStation p tag axis clear) → clear.toNat ≤ 1 →
      (s.station a = none →
        exec (.getStation p tag axis clear) s = .next (answered p s [] ⟨0x40, tag, .unavailable, [byteOf a.val]⟩)) ∧
      ∀ e, s.station a = some e →
        (clear = 0 →
          exec (.getStation p tag axis clear) s = .next (answered p s [] ⟨0x40, tag, .ok, stationReport e⟩)) ∧
        (clear = 1 →
          exec (.getStation p tag axis clear) s = .next (answered p
            { s with stations := s.stations.set a (some { e with
                crcErrors := 0, noReplies := 0, stales := 0, drops := 0, peakLatency := 0 }) } []
            ⟨0x40, tag, .ok, stationReport e⟩))) ∧
    (∀ axis clear, (47 < axis.toNat ∨ 1 < clear.toNat) → Taken s p (.getStation p tag axis clear) →
      exec (.getStation p tag axis clear) s = .next (answered p s [] ⟨0x40, tag, .badArg, []⟩)) ∧
    (Taken s p (.poll p tag) →
      exec (.poll p tag) s = .next (answered p
        (s.updPort p (fun pt => { pt with overflow := false, pending1 := false, pending2 := false, pending3 := false }))
        [] ⟨0x50, tag, .ok, pollReport s p⟩)) ∧
    (Taken s p (.fetch p tag) →
      exec (.fetch p tag) s = .next (answered p
        (s.updPort p (fun pt => { pt with events := pt.events.drop 8 })) []
        ⟨0x51, tag, .ok, byteOf (min 8 (s.port p).events.length) ::
          ((s.port p).events.take 8).flatMap EventRecord.bytes ++ [byteOf ((s.port p).events.length - 8)]⟩)) ∧
    ∀ filter, Taken s p (.setFilter p tag filter) →
      (filter.toNat ≤ 3 →
        exec (.setFilter p tag filter) s = .next (answered p
          (s.updPort p (fun pt => { pt with filter := filter.toNat })) [] ⟨0x52, tag, .ok, [filter]⟩)) ∧
      (3 < filter.toNat →
        exec (.setFilter p tag filter) s = .next (answered p s [] ⟨0x52, tag, .badArg, []⟩))

/-- BYTE_RECEIVED and FRAME_TIMEOUT: the receiver drops what is no SYNC byte in HUNT, assembles a whole frame from its bytes,
whatever values they have, and returns to HUNT; outside HUNT a framing fault, a LEN above 250 or the time between two
bytes discards the frame and counts it, up to 65535 (R170). -/
def Obligations.a_receiver_assembles_whole_frames : Prop :=
  (∀ (p : Console) (b : Byte) (fault : Bool) (s : State),
    exec (.byteReceived p b fault) s = .next (s.updPort p (receiveByte b fault)) ∧
    ((s.port p).receiver = .hunt → exec (.frameTimeout p) s = .next s) ∧
    ((s.port p).receiver ≠ .hunt →
      exec (.frameTimeout p) s = .next (s.updPort p (fun pt => { pt with
        receiver := .hunt, frameErrors := min (pt.frameErrors + 1) 65535 })))) ∧
  ∀ (pt : Port) (b : Byte),
    (pt.receiver = .hunt → receiveByte b true pt = pt ∧ (b ≠ 0xC5 → receiveByte b false pt = pt)) ∧
    (pt.receiver ≠ .hunt →
      receiveByte b true pt = { pt with receiver := .hunt, frameErrors := min (pt.frameErrors + 1) 65535 }) ∧
    (pt.receiver = .header [] → 250 < b.toNat →
      receiveByte b false pt = { pt with receiver := .hunt, frameErrors := min (pt.frameErrors + 1) 65535 }) ∧
    ∀ (kind tag hi lo : Byte) (body : List Byte), pt.receiver = .hunt → b.toNat ≤ 250 → body.length = b.toNat →
      (0xC5#8 :: b :: kind :: tag :: body ++ [hi, lo]).foldl (fun q x => receiveByte x false q) pt =
        { pt with complete := pt.complete ++ [⟨b, kind, tag, body, hi, lo⟩] }

/-- CONSOLE_FRAME: a complete frame with a wrong CRC, or one that completes while 3 or more replies wait, is counted and
answered with nothing; else it is answered STARTING, PORT_BUSY, UNKNOWN or BAD_LENGTH by the first check that applies, or
becomes the port's request in progress. A request command that is not in progress meets the same checks, the overrun among
them (R171, R172, R174, R185); that such a command stands for its frame is log entry 3. -/
def Obligations.a_frame_is_admitted_by_the_checks_in_order : Prop :=
  (∀ (p : Console) (s : State) (f : ConsoleFrame) (rest : List ConsoleFrame), (s.port p).complete = f :: rest →
    ∃ (w : (Port → Port) → State) (reply : ResultCode → Port → Port),
      (∀ g, w g = s.updPort p (fun pt => g { pt with complete := rest })) ∧
      (∀ code pt, reply code pt = { pt with transmit := pt.transmit ++ [⟨f.kind, f.tag, code, []⟩] }) ∧
      ((be16 (crc16 (f.length :: f.kind :: f.tag :: f.body)).toNat ≠ [f.crcHigh, f.crcLow] ∨
          3 ≤ (s.port p).transmit.length) →
        exec (.consoleFrame p) s = .next
          (w (fun pt => { pt with frameErrors := min (pt.frameErrors + 1) 65535 }))) ∧
      (be16 (crc16 (f.length :: f.kind :: f.tag :: f.body)).toNat = [f.crcHigh, f.crcLow] →
        (s.port p).transmit.length < 3 →
        (s.loader.state = .loading → exec (.consoleFrame p) s = .next (w (reply .starting))) ∧
        (s.loader.state ≠ .loading →
          ((s.port p).inProgress ≠ none → exec (.consoleFrame p) s = .next (w (reply .portBusy))) ∧
          ((s.port p).inProgress = none →
            (parseRequest p f.kind f.tag f.body = .unknown →
              exec (.consoleFrame p) s = .next (w (reply .unknown))) ∧
            (parseRequest p f.kind f.tag f.body = .badLength →
              exec (.consoleFrame p) s = .next (w (reply .badLength))) ∧
            ∀ i, parseRequest p f.kind f.tag f.body = .request i →
              exec (.consoleFrame p) s = .next (w (fun pt => { pt with inProgress := some i })))))) ∧
  ∀ (i : Instr) (p : Console) (tag kind : Byte) (s : State),
    i.request = some (p, tag, kind) → (s.port p).inProgress ≠ some i →
    (3 ≤ (s.port p).transmit.length →
      exec i s = .next (s.updPort p (fun pt => { pt with frameErrors := min (pt.frameErrors + 1) 65535 }))) ∧
    ((s.port p).transmit.length < 3 →
    (s.loader.state = .loading →
      exec i s = .next (s.updPort p (fun pt => { pt with transmit := pt.transmit ++ [⟨kind, tag, .starting, []⟩] }))) ∧
    (s.loader.state ≠ .loading → (s.port p).inProgress ≠ none →
      exec i s = .next (s.updPort p (fun pt => { pt with transmit := pt.transmit ++ [⟨kind, tag, .portBusy, []⟩] }))))

/-- REPLY_SENT takes the oldest reply off the transmit queue; EVENT_POSTED offers the oldest posted event to the three
ports, each of which queues it, loses it with its overflow flag set, or turns it away with its class's pending flag set,
and drives ATTENTION by its queue (R174, R177, R178, R179). That the events of all blocks wait in one list, in the order
posted, is log entry 5. -/
def Obligations.replies_are_sent_and_events_offered_oldest_first : Prop :=
  ∀ s : State,
    (∀ (p : Console) (r : PortReply) (rest : List PortReply), (s.port p).transmit = r :: rest →
      exec (.replySent p) s = .next (s.updPort p (fun pt => { pt with transmit := rest, sent := r.frame }))) ∧
    ∀ (e : EventRecord) (rest : List EventRecord), s.messages.posted = e :: rest →
      ∃ t, exec .eventPosted s = .next t ∧ t.messages = { s.messages with posted := rest } ∧
        (∀ p : Console,
          (e.body.cls ≤ (s.port p).filter → (s.port p).events.length < 32 →
            t.port p = { s.port p with events := (s.port p).events ++ [e] } ∧ (t.port p).attention = true) ∧
          (e.body.cls ≤ (s.port p).filter → 32 ≤ (s.port p).events.length →
            t.port p = { s.port p with overflow := true }) ∧
          ((s.port p).filter < e.body.cls → t.port p = { s.port p with
            pending1 := (s.port p).pending1 || decide (e.body.cls = 1)
            pending2 := (s.port p).pending2 || decide (e.body.cls = 2)
            pending3 := (s.port p).pending3 || decide (e.body.cls = 3) })) ∧
        { t with ports := s.ports, messages := s.messages } = s

/-- MASTER CLEAR with no save in progress and no lane in motion: every lane takes its reset values, every lock is set and
every axis unowned, the Cue Store is empty, every last gap absent, every event queue and report flag cleared, and the events
posted and not yet offered emptied with the queues; the plan queue is found empty, a plan in progress is left and is
withdrawn, and all else stays; otherwise it is refused BUSY (R21, R38, R54, R82, R86, R151, R183). That the withdrawals
outstanding are taken first is log entry 14; that the lanes keep what has been delivered to them is log entry 23. -/
def Obligations.master_clear_makes_one_change_across_the_part : Prop :=
  ∀ (p : Console) (tag : Byte) (s : State), Taken s p (.masterClear p tag) →
    ((s.loader.save ≠ none ∨ ∃ l : LaneId, (s.lane l).state ∈ [LaneState.planning, .releasing, .running, .stopping]) →
      exec (.masterClear p tag) s = .next (answered p s [] ⟨0x55, tag, .busy, []⟩)) ∧
    (s.loader.save = none → (∀ l : LaneId, (s.lane l).state ∈ [LaneState.idle, .ready, .held, .follow]) →
      ∃ u, exec (.masterClear p tag) s = .next (answered p u [] ⟨0x55, tag, .ok, []⟩) ∧
        (∀ l : LaneId, u.lane l = { Lane.reset with inbox := (s.lane l).inbox }) ∧
        (∀ a : AxisId, u.axis a = { s.axis a with lock := true, owner := none }) ∧
        (∀ n : StepNo, u.cues.slots.get n = none) ∧ (∀ l : LaneId, u.cues.privates.get l = none) ∧
        u.cues.free = 2048 ∧
        (∀ n : PairId, u.pairs.get n = (s.pairs.get n).map (fun pr => { pr with lastGap := none })) ∧
        (∀ q : Console, u.port q = { s.port q with
          events := [], overflow := false, pending1 := false, pending2 := false, pending3 := false }) ∧
        u.messages = { s.messages with posted := [] } ∧
        u.planner.queue = s.planner.queue.filter (fun l => decide (l ∉ s.planner.withdrawals)) ∧
        u.planner.inProgress = s.planner.inProgress.map (fun j =>
          { j with withdrawn := j.withdrawn || decide (j.lane ∈ s.planner.withdrawals) }) ∧
        u.planner.withdrawals = [] ∧
        (PlannerSound s → u.planner.queue = [] ∧ ∀ j, u.planner.inProgress = some j → j.withdrawn = true) ∧
        { u with lanes := s.lanes, axes := s.axes, cues := s.cues, pairs := s.pairs, ports := s.ports,
                 planner := s.planner, messages := s.messages } = s)

/-! ### Laws that every step keeps -/

/-- R57, R126: no lane is left in motion without an enabled controller, or in motion or STOPPING under a set latch, unless
the halt is still to be taken. -/
def Obligations.every_step_keeps_stops_reaching_lanes : Prop :=
  ∀ s t : State, StopsReachLanes s → step s = .next t → StopsReachLanes t

/-- R22, R23: claim sets and owners agree, and a lane that owns nothing holds no plan record. -/
def Obligations.every_step_keeps_claims_and_owners_agreed : Prop :=
  ∀ s t : State, ClaimsAgree s → step s = .next t → ClaimsAgree t

/-- Table 1-2, R1, R152: configuration, station entry and setpoint are present exactly in the axis states that have
them. -/
def Obligations.every_step_keeps_axis_records_agreed : Prop :=
  ∀ s t : State, RecordsAgree s → step s = .next t → RecordsAgree t

/-- R42, R82, R83, R174, R178: every stored step and the pool stay inside their bounds, as do every port's queues, filter and
counter, the plan queue holds only PLANNING lanes, each once, but for withdrawals still to take, and the serial memory
stays in its one form. -/
def Obligations.every_step_keeps_the_stores_bounded : Prop :=
  ∀ s t : State, step s = .next t →
    (StoreLawful s → StoreLawful t) ∧ (PortsBounded s → PortsBounded t) ∧
    (Memory.wf s.memory = true → Memory.wf t.memory = true) ∧ (PlannerSound s → PlannerSound t)

/-- R12: every present setpoint stays inside the soft limits of its axis, beside the laws that keep it there. -/
def Obligations.every_step_keeps_setpoints_inside_their_limits : Prop :=
  ∀ s t : State, RecordsAgree s → PlannerSound s → SetpointsInside s → step s = .next t → SetpointsInside t

/-- The part after pin reset obeys every law that a step keeps. -/
def Obligations.reset_obeys_every_law : Prop :=
  StopsReachLanes State.reset ∧ ClaimsAgree State.reset ∧ RecordsAgree State.reset ∧ StoreLawful State.reset ∧
    PortsBounded State.reset ∧ PlannerSound State.reset ∧ SetpointsInside State.reset ∧
    Memory.wf State.reset.memory = true
end

