-- ==== Sys2Proof/Laws/Table.lean ====
section
/-! SUPPORT. Reading a table after each of its operations. -/

namespace Sys2Proof.Table

variable {n : Nat} {α β γ : Type}

@[simp] theorem get_set_same (t : Table n α) (i : Fin n) (v : α) : (t.set i v).get i = v := by
  simp [get, set]

theorem get_set_of_ne (t : Table n α) {i j : Fin n} (v : α) (h : i ≠ j) : (t.set i v).get j = t.get j := by
  have : i.val ≠ j.val := fun e => h (Fin.ext e)
  simp [get, set, this]

theorem get_set (t : Table n α) (i j : Fin n) (v : α) :
    (t.set i v).get j = if i = j then v else t.get j := by
  by_cases h : i = j
  · subst h; simp
  · simp [h, get_set_of_ne t v h]

@[simp] theorem get_fill (v : α) (i : Fin n) : (fill n v).get i = v := by
  simp [get, fill]

@[simp] theorem get_mapIdx (f : Fin n → α → β) (t : Table n α) (i : Fin n) :
    (t.mapIdx f).get i = f i (t.get i) := by
  simp [get, mapIdx]

@[simp] theorem get_map (f : α → β) (t : Table n α) (i : Fin n) : (t.map f).get i = f (t.get i) := by
  simp [map]

@[simp] theorem get_modify_same (t : Table n α) (i : Fin n) (f : α → α) : (t.modify i f).get i = f (t.get i) := by
  simp [modify]

theorem get_modify_of_ne (t : Table n α) {i j : Fin n} (f : α → α) (h : i ≠ j) :
    (t.modify i f).get j = t.get j := by
  simp [modify, get_set_of_ne t _ h]

theorem get_modify (t : Table n α) (i j : Fin n) (f : α → α) :
    (t.modify i f).get j = if i = j then f (t.get i) else t.get j := by
  simp [modify, get_set]

/-- Two tables that read alike everywhere are equal. -/
theorem ext_get {t u : Table n α} (h : ∀ i, t.get i = u.get i) : t = u := by
  obtain ⟨ts, ht⟩ := t
  obtain ⟨us, hu⟩ := u
  have : ts = us := by
    apply List.ext_getElem (by omega)
    intro i h1 h2
    exact h ⟨i, by omega⟩
  subst this; rfl

/-- The records of a table are what its numbers read, in order. -/
theorem cells_eq (t : Table n α) : t.cells = (List.finRange n).map t.get := by
  apply List.ext_getElem (by simp [t.size])
  intro i h1 h2
  simp [get]

theorem mem_indices {t : Table n α} {p : α → Bool} {i : Fin n} : i ∈ t.indices p ↔ p (t.get i) = true := by
  simp [indices]

theorem modify_modify (t : Table n α) (i : Fin n) (f g : α → α) :
    (t.modify i f).modify i g = t.modify i (fun v => g (f v)) := by
  apply ext_get; intro j
  by_cases h : i = j <;> simp [get_modify, h]

theorem map_map (f : α → β) (g : β → γ) (t : Table n α) : (t.map f).map g = t.map (fun v => g (f v)) := by
  apply ext_get; intro j; simp

end Sys2Proof.Table
end

