-- ==== Sys2Proof/Laws/State.lean ====
section
/-! SUPPORT. One lemma per field per update of the state, and the records read after each update: all true by the
definitions, so that no proof unfolds a record update. -/

namespace Sys2Proof.Machine

variable (s : State)

/-! updLane -/

@[simp] theorem State.updLane_pending (l : LaneId) (f : Lane → Lane) : (s.updLane l f).pending = s.pending := rfl
@[simp] theorem State.updLane_period (l : LaneId) (f : Lane → Lane) : (s.updLane l f).period = s.period := rfl
@[simp] theorem State.updLane_latch (l : LaneId) (f : Lane → Lane) : (s.updLane l f).latch = s.latch := rfl
@[simp] theorem State.updLane_lines (l : LaneId) (f : Lane → Lane) : (s.updLane l f).lines = s.lines := rfl
@[simp] theorem State.updLane_memory (l : LaneId) (f : Lane → Lane) : (s.updLane l f).memory = s.memory := rfl
@[simp] theorem State.updLane_axes (l : LaneId) (f : Lane → Lane) : (s.updLane l f).axes = s.axes := rfl
@[simp] theorem State.updLane_lanes (l : LaneId) (f : Lane → Lane) : (s.updLane l f).lanes = s.lanes.modify l f := rfl
@[simp] theorem State.updLane_cues (l : LaneId) (f : Lane → Lane) : (s.updLane l f).cues = s.cues := rfl
@[simp] theorem State.updLane_planner (l : LaneId) (f : Lane → Lane) : (s.updLane l f).planner = s.planner := rfl
@[simp] theorem State.updLane_contexts (l : LaneId) (f : Lane → Lane) : (s.updLane l f).contexts = s.contexts := rfl
@[simp] theorem State.updLane_stops (l : LaneId) (f : Lane → Lane) : (s.updLane l f).stops = s.stops := rfl
@[simp] theorem State.updLane_pairs (l : LaneId) (f : Lane → Lane) : (s.updLane l f).pairs = s.pairs := rfl
@[simp] theorem State.updLane_stations (l : LaneId) (f : Lane → Lane) : (s.updLane l f).stations = s.stations := rfl
@[simp] theorem State.updLane_link (l : LaneId) (f : Lane → Lane) : (s.updLane l f).link = s.link := rfl
@[simp] theorem State.updLane_ports (l : LaneId) (f : Lane → Lane) : (s.updLane l f).ports = s.ports := rfl
@[simp] theorem State.updLane_loader (l : LaneId) (f : Lane → Lane) : (s.updLane l f).loader = s.loader := rfl
@[simp] theorem State.updLane_messages (l : LaneId) (f : Lane → Lane) : (s.updLane l f).messages = s.messages := rfl
@[simp] theorem State.updLane_get_axis (l : LaneId) (f : Lane → Lane) (b : AxisId) : (s.updLane l f).axis b = s.axis b := rfl
@[simp] theorem State.updLane_get_port (l : LaneId) (f : Lane → Lane) (q : Console) : (s.updLane l f).port q = s.port q := rfl
@[simp] theorem State.updLane_get_station (l : LaneId) (f : Lane → Lane) (b : AxisId) : (s.updLane l f).station b = s.station b := rfl
@[simp] theorem State.updLane_get_context (l : LaneId) (f : Lane → Lane) (k : LaneId) : (s.updLane l f).context k = s.context k := rfl
@[simp] theorem State.updLane_get_stop (l : LaneId) (f : Lane → Lane) (b : AxisId) : (s.updLane l f).stop b = s.stop b := rfl
@[simp] theorem State.updLane_get_qualified (l : LaneId) (f : Lane → Lane) (line' : Line) : (s.updLane l f).qualified line' = s.qualified line' := rfl
@[simp] theorem State.updLane_get_enabled (l : LaneId) (f : Lane → Lane) (c' : Console) : (s.updLane l f).enabled c' = s.enabled c' := rfl
@[simp] theorem State.updLane_get_saving (l : LaneId) (f : Lane → Lane) : (s.updLane l f).saving = s.saving := rfl
@[simp] theorem State.updLane_get_present (l : LaneId) (f : Lane → Lane) (b : AxisId) : (s.updLane l f).present b = s.present b := rfl
@[simp] theorem State.updLane_get_online (l : LaneId) (f : Lane → Lane) (b : AxisId) : (s.updLane l f).online b = s.online b := rfl

/-! updAxis -/

@[simp] theorem State.updAxis_pending (a : AxisId) (f : Axis → Axis) : (s.updAxis a f).pending = s.pending := rfl
@[simp] theorem State.updAxis_period (a : AxisId) (f : Axis → Axis) : (s.updAxis a f).period = s.period := rfl
@[simp] theorem State.updAxis_latch (a : AxisId) (f : Axis → Axis) : (s.updAxis a f).latch = s.latch := rfl
@[simp] theorem State.updAxis_lines (a : AxisId) (f : Axis → Axis) : (s.updAxis a f).lines = s.lines := rfl
@[simp] theorem State.updAxis_memory (a : AxisId) (f : Axis → Axis) : (s.updAxis a f).memory = s.memory := rfl
@[simp] theorem State.updAxis_axes (a : AxisId) (f : Axis → Axis) : (s.updAxis a f).axes = s.axes.modify a f := rfl
@[simp] theorem State.updAxis_lanes (a : AxisId) (f : Axis → Axis) : (s.updAxis a f).lanes = s.lanes := rfl
@[simp] theorem State.updAxis_cues (a : AxisId) (f : Axis → Axis) : (s.updAxis a f).cues = s.cues := rfl
@[simp] theorem State.updAxis_planner (a : AxisId) (f : Axis → Axis) : (s.updAxis a f).planner = s.planner := rfl
@[simp] theorem State.updAxis_contexts (a : AxisId) (f : Axis → Axis) : (s.updAxis a f).contexts = s.contexts := rfl
@[simp] theorem State.updAxis_stops (a : AxisId) (f : Axis → Axis) : (s.updAxis a f).stops = s.stops := rfl
@[simp] theorem State.updAxis_pairs (a : AxisId) (f : Axis → Axis) : (s.updAxis a f).pairs = s.pairs := rfl
@[simp] theorem State.updAxis_stations (a : AxisId) (f : Axis → Axis) : (s.updAxis a f).stations = s.stations := rfl
@[simp] theorem State.updAxis_link (a : AxisId) (f : Axis → Axis) : (s.updAxis a f).link = s.link := rfl
@[simp] theorem State.updAxis_ports (a : AxisId) (f : Axis → Axis) : (s.updAxis a f).ports = s.ports := rfl
@[simp] theorem State.updAxis_loader (a : AxisId) (f : Axis → Axis) : (s.updAxis a f).loader = s.loader := rfl
@[simp] theorem State.updAxis_messages (a : AxisId) (f : Axis → Axis) : (s.updAxis a f).messages = s.messages := rfl
@[simp] theorem State.updAxis_get_lane (a : AxisId) (f : Axis → Axis) (k : LaneId) : (s.updAxis a f).lane k = s.lane k := rfl
@[simp] theorem State.updAxis_get_port (a : AxisId) (f : Axis → Axis) (q : Console) : (s.updAxis a f).port q = s.port q := rfl
@[simp] theorem State.updAxis_get_station (a : AxisId) (f : Axis → Axis) (b : AxisId) : (s.updAxis a f).station b = s.station b := rfl
@[simp] theorem State.updAxis_get_context (a : AxisId) (f : Axis → Axis) (k : LaneId) : (s.updAxis a f).context k = s.context k := rfl
@[simp] theorem State.updAxis_get_stop (a : AxisId) (f : Axis → Axis) (b : AxisId) : (s.updAxis a f).stop b = s.stop b := rfl
@[simp] theorem State.updAxis_get_qualified (a : AxisId) (f : Axis → Axis) (line' : Line) : (s.updAxis a f).qualified line' = s.qualified line' := rfl
@[simp] theorem State.updAxis_get_enabled (a : AxisId) (f : Axis → Axis) (c' : Console) : (s.updAxis a f).enabled c' = s.enabled c' := rfl
@[simp] theorem State.updAxis_get_saving (a : AxisId) (f : Axis → Axis) : (s.updAxis a f).saving = s.saving := rfl
@[simp] theorem State.updAxis_get_online (a : AxisId) (f : Axis → Axis) (b : AxisId) : (s.updAxis a f).online b = s.online b := rfl

/-! updPort -/

@[simp] theorem State.updPort_pending (p : Console) (f : Port → Port) : (s.updPort p f).pending = s.pending := rfl
@[simp] theorem State.updPort_period (p : Console) (f : Port → Port) : (s.updPort p f).period = s.period := rfl
@[simp] theorem State.updPort_latch (p : Console) (f : Port → Port) : (s.updPort p f).latch = s.latch := rfl
@[simp] theorem State.updPort_lines (p : Console) (f : Port → Port) : (s.updPort p f).lines = s.lines := rfl
@[simp] theorem State.updPort_memory (p : Console) (f : Port → Port) : (s.updPort p f).memory = s.memory := rfl
@[simp] theorem State.updPort_axes (p : Console) (f : Port → Port) : (s.updPort p f).axes = s.axes := rfl
@[simp] theorem State.updPort_lanes (p : Console) (f : Port → Port) : (s.updPort p f).lanes = s.lanes := rfl
@[simp] theorem State.updPort_cues (p : Console) (f : Port → Port) : (s.updPort p f).cues = s.cues := rfl
@[simp] theorem State.updPort_planner (p : Console) (f : Port → Port) : (s.updPort p f).planner = s.planner := rfl
@[simp] theorem State.updPort_contexts (p : Console) (f : Port → Port) : (s.updPort p f).contexts = s.contexts := rfl
@[simp] theorem State.updPort_stops (p : Console) (f : Port → Port) : (s.updPort p f).stops = s.stops := rfl
@[simp] theorem State.updPort_pairs (p : Console) (f : Port → Port) : (s.updPort p f).pairs = s.pairs := rfl
@[simp] theorem State.updPort_stations (p : Console) (f : Port → Port) : (s.updPort p f).stations = s.stations := rfl
@[simp] theorem State.updPort_link (p : Console) (f : Port → Port) : (s.updPort p f).link = s.link := rfl
@[simp] theorem State.updPort_ports (p : Console) (f : Port → Port) : (s.updPort p f).ports = s.ports.modify p f := rfl
@[simp] theorem State.updPort_loader (p : Console) (f : Port → Port) : (s.updPort p f).loader = s.loader := rfl
@[simp] theorem State.updPort_messages (p : Console) (f : Port → Port) : (s.updPort p f).messages = s.messages := rfl
@[simp] theorem State.updPort_get_lane (p : Console) (f : Port → Port) (k : LaneId) : (s.updPort p f).lane k = s.lane k := rfl
@[simp] theorem State.updPort_get_axis (p : Console) (f : Port → Port) (b : AxisId) : (s.updPort p f).axis b = s.axis b := rfl
@[simp] theorem State.updPort_get_station (p : Console) (f : Port → Port) (b : AxisId) : (s.updPort p f).station b = s.station b := rfl
@[simp] theorem State.updPort_get_context (p : Console) (f : Port → Port) (k : LaneId) : (s.updPort p f).context k = s.context k := rfl
@[simp] theorem State.updPort_get_stop (p : Console) (f : Port → Port) (b : AxisId) : (s.updPort p f).stop b = s.stop b := rfl
@[simp] theorem State.updPort_get_qualified (p : Console) (f : Port → Port) (line' : Line) : (s.updPort p f).qualified line' = s.qualified line' := rfl
@[simp] theorem State.updPort_get_enabled (p : Console) (f : Port → Port) (c' : Console) : (s.updPort p f).enabled c' = s.enabled c' := rfl
@[simp] theorem State.updPort_get_saving (p : Console) (f : Port → Port) : (s.updPort p f).saving = s.saving := rfl
@[simp] theorem State.updPort_get_present (p : Console) (f : Port → Port) (b : AxisId) : (s.updPort p f).present b = s.present b := rfl
@[simp] theorem State.updPort_get_online (p : Console) (f : Port → Port) (b : AxisId) : (s.updPort p f).online b = s.online b := rfl

/-! updMessages -/

@[simp] theorem State.updMessages_pending (f : Messages → Messages) : (s.updMessages f).pending = s.pending := rfl
@[simp] theorem State.updMessages_period (f : Messages → Messages) : (s.updMessages f).period = s.period := rfl
@[simp] theorem State.updMessages_latch (f : Messages → Messages) : (s.updMessages f).latch = s.latch := rfl
@[simp] theorem State.updMessages_lines (f : Messages → Messages) : (s.updMessages f).lines = s.lines := rfl
@[simp] theorem State.updMessages_memory (f : Messages → Messages) : (s.updMessages f).memory = s.memory := rfl
@[simp] theorem State.updMessages_axes (f : Messages → Messages) : (s.updMessages f).axes = s.axes := rfl
@[simp] theorem State.updMessages_lanes (f : Messages → Messages) : (s.updMessages f).lanes = s.lanes := rfl
@[simp] theorem State.updMessages_cues (f : Messages → Messages) : (s.updMessages f).cues = s.cues := rfl
@[simp] theorem State.updMessages_planner (f : Messages → Messages) : (s.updMessages f).planner = s.planner := rfl
@[simp] theorem State.updMessages_contexts (f : Messages → Messages) : (s.updMessages f).contexts = s.contexts := rfl
@[simp] theorem State.updMessages_stops (f : Messages → Messages) : (s.updMessages f).stops = s.stops := rfl
@[simp] theorem State.updMessages_pairs (f : Messages → Messages) : (s.updMessages f).pairs = s.pairs := rfl
@[simp] theorem State.updMessages_stations (f : Messages → Messages) : (s.updMessages f).stations = s.stations := rfl
@[simp] theorem State.updMessages_link (f : Messages → Messages) : (s.updMessages f).link = s.link := rfl
@[simp] theorem State.updMessages_ports (f : Messages → Messages) : (s.updMessages f).ports = s.ports := rfl
@[simp] theorem State.updMessages_loader (f : Messages → Messages) : (s.updMessages f).loader = s.loader := rfl
@[simp] theorem State.updMessages_messages (f : Messages → Messages) : (s.updMessages f).messages = f s.messages := rfl
@[simp] theorem State.updMessages_get_lane (f : Messages → Messages) (k : LaneId) : (s.updMessages f).lane k = s.lane k := rfl
@[simp] theorem State.updMessages_get_axis (f : Messages → Messages) (b : AxisId) : (s.updMessages f).axis b = s.axis b := rfl
@[simp] theorem State.updMessages_get_port (f : Messages → Messages) (q : Console) : (s.updMessages f).port q = s.port q := rfl
@[simp] theorem State.updMessages_get_station (f : Messages → Messages) (b : AxisId) : (s.updMessages f).station b = s.station b := rfl
@[simp] theorem State.updMessages_get_context (f : Messages → Messages) (k : LaneId) : (s.updMessages f).context k = s.context k := rfl
@[simp] theorem State.updMessages_get_stop (f : Messages → Messages) (b : AxisId) : (s.updMessages f).stop b = s.stop b := rfl
@[simp] theorem State.updMessages_get_qualified (f : Messages → Messages) (line' : Line) : (s.updMessages f).qualified line' = s.qualified line' := rfl
@[simp] theorem State.updMessages_get_enabled (f : Messages → Messages) (c' : Console) : (s.updMessages f).enabled c' = s.enabled c' := rfl
@[simp] theorem State.updMessages_get_saving (f : Messages → Messages) : (s.updMessages f).saving = s.saving := rfl
@[simp] theorem State.updMessages_get_present (f : Messages → Messages) (b : AxisId) : (s.updMessages f).present b = s.present b := rfl
@[simp] theorem State.updMessages_get_online (f : Messages → Messages) (b : AxisId) : (s.updMessages f).online b = s.online b := rfl

/-! setStation -/

@[simp] theorem State.setStation_pending (a : AxisId) (e : Option StationEntry) : (s.setStation a e).pending = s.pending := rfl
@[simp] theorem State.setStation_period (a : AxisId) (e : Option StationEntry) : (s.setStation a e).period = s.period := rfl
@[simp] theorem State.setStation_latch (a : AxisId) (e : Option StationEntry) : (s.setStation a e).latch = s.latch := rfl
@[simp] theorem State.setStation_lines (a : AxisId) (e : Option StationEntry) : (s.setStation a e).lines = s.lines := rfl
@[simp] theorem State.setStation_memory (a : AxisId) (e : Option StationEntry) : (s.setStation a e).memory = s.memory := rfl
@[simp] theorem State.setStation_axes (a : AxisId) (e : Option StationEntry) : (s.setStation a e).axes = s.axes := rfl
@[simp] theorem State.setStation_lanes (a : AxisId) (e : Option StationEntry) : (s.setStation a e).lanes = s.lanes := rfl
@[simp] theorem State.setStation_cues (a : AxisId) (e : Option StationEntry) : (s.setStation a e).cues = s.cues := rfl
@[simp] theorem State.setStation_planner (a : AxisId) (e : Option StationEntry) : (s.setStation a e).planner = s.planner := rfl
@[simp] theorem State.setStation_contexts (a : AxisId) (e : Option StationEntry) : (s.setStation a e).contexts = s.contexts := rfl
@[simp] theorem State.setStation_stops (a : AxisId) (e : Option StationEntry) : (s.setStation a e).stops = s.stops := rfl
@[simp] theorem State.setStation_pairs (a : AxisId) (e : Option StationEntry) : (s.setStation a e).pairs = s.pairs := rfl
@[simp] theorem State.setStation_stations (a : AxisId) (e : Option StationEntry) : (s.setStation a e).stations = s.stations.set a e := rfl
@[simp] theorem State.setStation_link (a : AxisId) (e : Option StationEntry) : (s.setStation a e).link = s.link := rfl
@[simp] theorem State.setStation_ports (a : AxisId) (e : Option StationEntry) : (s.setStation a e).ports = s.ports := rfl
@[simp] theorem State.setStation_loader (a : AxisId) (e : Option StationEntry) : (s.setStation a e).loader = s.loader := rfl
@[simp] theorem State.setStation_messages (a : AxisId) (e : Option StationEntry) : (s.setStation a e).messages = s.messages := rfl
@[simp] theorem State.setStation_get_lane (a : AxisId) (e : Option StationEntry) (k : LaneId) : (s.setStation a e).lane k = s.lane k := rfl
@[simp] theorem State.setStation_get_axis (a : AxisId) (e : Option StationEntry) (b : AxisId) : (s.setStation a e).axis b = s.axis b := rfl
@[simp] theorem State.setStation_get_port (a : AxisId) (e : Option StationEntry) (q : Console) : (s.setStation a e).port q = s.port q := rfl
@[simp] theorem State.setStation_get_context (a : AxisId) (e : Option StationEntry) (k : LaneId) : (s.setStation a e).context k = s.context k := rfl
@[simp] theorem State.setStation_get_stop (a : AxisId) (e : Option StationEntry) (b : AxisId) : (s.setStation a e).stop b = s.stop b := rfl
@[simp] theorem State.setStation_get_qualified (a : AxisId) (e : Option StationEntry) (line' : Line) : (s.setStation a e).qualified line' = s.qualified line' := rfl
@[simp] theorem State.setStation_get_enabled (a : AxisId) (e : Option StationEntry) (c' : Console) : (s.setStation a e).enabled c' = s.enabled c' := rfl
@[simp] theorem State.setStation_get_saving (a : AxisId) (e : Option StationEntry) : (s.setStation a e).saving = s.saving := rfl
@[simp] theorem State.setStation_get_present (a : AxisId) (e : Option StationEntry) (b : AxisId) : (s.setStation a e).present b = s.present b := rfl

/-! setContext -/

@[simp] theorem State.setContext_pending (l : LaneId) (c : Option MotionContext) : (s.setContext l c).pending = s.pending := rfl
@[simp] theorem State.setContext_period (l : LaneId) (c : Option MotionContext) : (s.setContext l c).period = s.period := rfl
@[simp] theorem State.setContext_latch (l : LaneId) (c : Option MotionContext) : (s.setContext l c).latch = s.latch := rfl
@[simp] theorem State.setContext_lines (l : LaneId) (c : Option MotionContext) : (s.setContext l c).lines = s.lines := rfl
@[simp] theorem State.setContext_memory (l : LaneId) (c : Option MotionContext) : (s.setContext l c).memory = s.memory := rfl
@[simp] theorem State.setContext_axes (l : LaneId) (c : Option MotionContext) : (s.setContext l c).axes = s.axes := rfl
@[simp] theorem State.setContext_lanes (l : LaneId) (c : Option MotionContext) : (s.setContext l c).lanes = s.lanes := rfl
@[simp] theorem State.setContext_cues (l : LaneId) (c : Option MotionContext) : (s.setContext l c).cues = s.cues := rfl
@[simp] theorem State.setContext_planner (l : LaneId) (c : Option MotionContext) : (s.setContext l c).planner = s.planner := rfl
@[simp] theorem State.setContext_contexts (l : LaneId) (c : Option MotionContext) : (s.setContext l c).contexts = s.contexts.set l c := rfl
@[simp] theorem State.setContext_stops (l : LaneId) (c : Option MotionContext) : (s.setContext l c).stops = s.stops := rfl
@[simp] theorem State.setContext_pairs (l : LaneId) (c : Option MotionContext) : (s.setContext l c).pairs = s.pairs := rfl
@[simp] theorem State.setContext_stations (l : LaneId) (c : Option MotionContext) : (s.setContext l c).stations = s.stations := rfl
@[simp] theorem State.setContext_link (l : LaneId) (c : Option MotionContext) : (s.setContext l c).link = s.link := rfl
@[simp] theorem State.setContext_ports (l : LaneId) (c : Option MotionContext) : (s.setContext l c).ports = s.ports := rfl
@[simp] theorem State.setContext_loader (l : LaneId) (c : Option MotionContext) : (s.setContext l c).loader = s.loader := rfl
@[simp] theorem State.setContext_messages (l : LaneId) (c : Option MotionContext) : (s.setContext l c).messages = s.messages := rfl
@[simp] theorem State.setContext_get_lane (l : LaneId) (c : Option MotionContext) (k : LaneId) : (s.setContext l c).lane k = s.lane k := rfl
@[simp] theorem State.setContext_get_axis (l : LaneId) (c : Option MotionContext) (b : AxisId) : (s.setContext l c).axis b = s.axis b := rfl
@[simp] theorem State.setContext_get_port (l : LaneId) (c : Option MotionContext) (q : Console) : (s.setContext l c).port q = s.port q := rfl
@[simp] theorem State.setContext_get_station (l : LaneId) (c : Option MotionContext) (b : AxisId) : (s.setContext l c).station b = s.station b := rfl
@[simp] theorem State.setContext_get_stop (l : LaneId) (c : Option MotionContext) (b : AxisId) : (s.setContext l c).stop b = s.stop b := rfl
@[simp] theorem State.setContext_get_qualified (l : LaneId) (c : Option MotionContext) (line' : Line) : (s.setContext l c).qualified line' = s.qualified line' := rfl
@[simp] theorem State.setContext_get_enabled (l : LaneId) (c : Option MotionContext) (c' : Console) : (s.setContext l c).enabled c' = s.enabled c' := rfl
@[simp] theorem State.setContext_get_saving (l : LaneId) (c : Option MotionContext) : (s.setContext l c).saving = s.saving := rfl
@[simp] theorem State.setContext_get_present (l : LaneId) (c : Option MotionContext) (b : AxisId) : (s.setContext l c).present b = s.present b := rfl
@[simp] theorem State.setContext_get_online (l : LaneId) (c : Option MotionContext) (b : AxisId) : (s.setContext l c).online b = s.online b := rfl

/-! setStop -/

@[simp] theorem State.setStop_pending (a : AxisId) (r : Option StopRecord) : (s.setStop a r).pending = s.pending := rfl
@[simp] theorem State.setStop_period (a : AxisId) (r : Option StopRecord) : (s.setStop a r).period = s.period := rfl
@[simp] theorem State.setStop_latch (a : AxisId) (r : Option StopRecord) : (s.setStop a r).latch = s.latch := rfl
@[simp] theorem State.setStop_lines (a : AxisId) (r : Option StopRecord) : (s.setStop a r).lines = s.lines := rfl
@[simp] theorem State.setStop_memory (a : AxisId) (r : Option StopRecord) : (s.setStop a r).memory = s.memory := rfl
@[simp] theorem State.setStop_axes (a : AxisId) (r : Option StopRecord) : (s.setStop a r).axes = s.axes := rfl
@[simp] theorem State.setStop_lanes (a : AxisId) (r : Option StopRecord) : (s.setStop a r).lanes = s.lanes := rfl
@[simp] theorem State.setStop_cues (a : AxisId) (r : Option StopRecord) : (s.setStop a r).cues = s.cues := rfl
@[simp] theorem State.setStop_planner (a : AxisId) (r : Option StopRecord) : (s.setStop a r).planner = s.planner := rfl
@[simp] theorem State.setStop_contexts (a : AxisId) (r : Option StopRecord) : (s.setStop a r).contexts = s.contexts := rfl
@[simp] theorem State.setStop_stops (a : AxisId) (r : Option StopRecord) : (s.setStop a r).stops = s.stops.set a r := rfl
@[simp] theorem State.setStop_pairs (a : AxisId) (r : Option StopRecord) : (s.setStop a r).pairs = s.pairs := rfl
@[simp] theorem State.setStop_stations (a : AxisId) (r : Option StopRecord) : (s.setStop a r).stations = s.stations := rfl
@[simp] theorem State.setStop_link (a : AxisId) (r : Option StopRecord) : (s.setStop a r).link = s.link := rfl
@[simp] theorem State.setStop_ports (a : AxisId) (r : Option StopRecord) : (s.setStop a r).ports = s.ports := rfl
@[simp] theorem State.setStop_loader (a : AxisId) (r : Option StopRecord) : (s.setStop a r).loader = s.loader := rfl
@[simp] theorem State.setStop_messages (a : AxisId) (r : Option StopRecord) : (s.setStop a r).messages = s.messages := rfl
@[simp] theorem State.setStop_get_lane (a : AxisId) (r : Option StopRecord) (k : LaneId) : (s.setStop a r).lane k = s.lane k := rfl
@[simp] theorem State.setStop_get_axis (a : AxisId) (r : Option StopRecord) (b : AxisId) : (s.setStop a r).axis b = s.axis b := rfl
@[simp] theorem State.setStop_get_port (a : AxisId) (r : Option StopRecord) (q : Console) : (s.setStop a r).port q = s.port q := rfl
@[simp] theorem State.setStop_get_station (a : AxisId) (r : Option StopRecord) (b : AxisId) : (s.setStop a r).station b = s.station b := rfl
@[simp] theorem State.setStop_get_context (a : AxisId) (r : Option StopRecord) (k : LaneId) : (s.setStop a r).context k = s.context k := rfl
@[simp] theorem State.setStop_get_qualified (a : AxisId) (r : Option StopRecord) (line' : Line) : (s.setStop a r).qualified line' = s.qualified line' := rfl
@[simp] theorem State.setStop_get_enabled (a : AxisId) (r : Option StopRecord) (c' : Console) : (s.setStop a r).enabled c' = s.enabled c' := rfl
@[simp] theorem State.setStop_get_saving (a : AxisId) (r : Option StopRecord) : (s.setStop a r).saving = s.saving := rfl
@[simp] theorem State.setStop_get_present (a : AxisId) (r : Option StopRecord) (b : AxisId) : (s.setStop a r).present b = s.present b := rfl
@[simp] theorem State.setStop_get_online (a : AxisId) (r : Option StopRecord) (b : AxisId) : (s.setStop a r).online b = s.online b := rfl

/-! emit -/

@[simp] theorem State.emit_pending (e : EventBody) : (s.emit e).pending = s.pending := rfl
@[simp] theorem State.emit_period (e : EventBody) : (s.emit e).period = s.period := rfl
@[simp] theorem State.emit_latch (e : EventBody) : (s.emit e).latch = s.latch := rfl
@[simp] theorem State.emit_lines (e : EventBody) : (s.emit e).lines = s.lines := rfl
@[simp] theorem State.emit_memory (e : EventBody) : (s.emit e).memory = s.memory := rfl
@[simp] theorem State.emit_axes (e : EventBody) : (s.emit e).axes = s.axes := rfl
@[simp] theorem State.emit_lanes (e : EventBody) : (s.emit e).lanes = s.lanes := rfl
@[simp] theorem State.emit_cues (e : EventBody) : (s.emit e).cues = s.cues := rfl
@[simp] theorem State.emit_planner (e : EventBody) : (s.emit e).planner = s.planner := rfl
@[simp] theorem State.emit_contexts (e : EventBody) : (s.emit e).contexts = s.contexts := rfl
@[simp] theorem State.emit_stops (e : EventBody) : (s.emit e).stops = s.stops := rfl
@[simp] theorem State.emit_pairs (e : EventBody) : (s.emit e).pairs = s.pairs := rfl
@[simp] theorem State.emit_stations (e : EventBody) : (s.emit e).stations = s.stations := rfl
@[simp] theorem State.emit_link (e : EventBody) : (s.emit e).link = s.link := rfl
@[simp] theorem State.emit_ports (e : EventBody) : (s.emit e).ports = s.ports := rfl
@[simp] theorem State.emit_loader (e : EventBody) : (s.emit e).loader = s.loader := rfl
@[simp] theorem State.emit_messages (e : EventBody) : (s.emit e).messages = { s.messages with posted := s.messages.posted ++ [⟨e, s.period⟩] } := rfl
@[simp] theorem State.emit_get_lane (e : EventBody) (k : LaneId) : (s.emit e).lane k = s.lane k := rfl
@[simp] theorem State.emit_get_axis (e : EventBody) (b : AxisId) : (s.emit e).axis b = s.axis b := rfl
@[simp] theorem State.emit_get_port (e : EventBody) (q : Console) : (s.emit e).port q = s.port q := rfl
@[simp] theorem State.emit_get_station (e : EventBody) (b : AxisId) : (s.emit e).station b = s.station b := rfl
@[simp] theorem State.emit_get_context (e : EventBody) (k : LaneId) : (s.emit e).context k = s.context k := rfl
@[simp] theorem State.emit_get_stop (e : EventBody) (b : AxisId) : (s.emit e).stop b = s.stop b := rfl
@[simp] theorem State.emit_get_qualified (e : EventBody) (line' : Line) : (s.emit e).qualified line' = s.qualified line' := rfl
@[simp] theorem State.emit_get_enabled (e : EventBody) (c' : Console) : (s.emit e).enabled c' = s.enabled c' := rfl
@[simp] theorem State.emit_get_saving (e : EventBody) : (s.emit e).saving = s.saving := rfl
@[simp] theorem State.emit_get_present (e : EventBody) (b : AxisId) : (s.emit e).present b = s.present b := rfl
@[simp] theorem State.emit_get_online (e : EventBody) (b : AxisId) : (s.emit e).online b = s.online b := rfl

/-! deliver -/

@[simp] theorem State.deliver_pending (l : LaneId) (m : LaneMessage) : (s.deliver l m).pending = s.pending := rfl
@[simp] theorem State.deliver_period (l : LaneId) (m : LaneMessage) : (s.deliver l m).period = s.period := rfl
@[simp] theorem State.deliver_latch (l : LaneId) (m : LaneMessage) : (s.deliver l m).latch = s.latch := rfl
@[simp] theorem State.deliver_lines (l : LaneId) (m : LaneMessage) : (s.deliver l m).lines = s.lines := rfl
@[simp] theorem State.deliver_memory (l : LaneId) (m : LaneMessage) : (s.deliver l m).memory = s.memory := rfl
@[simp] theorem State.deliver_axes (l : LaneId) (m : LaneMessage) : (s.deliver l m).axes = s.axes := rfl
@[simp] theorem State.deliver_lanes (l : LaneId) (m : LaneMessage) : (s.deliver l m).lanes = s.lanes.modify l (fun ln => { ln with inbox := ln.inbox ++ [m] }) := rfl
@[simp] theorem State.deliver_cues (l : LaneId) (m : LaneMessage) : (s.deliver l m).cues = s.cues := rfl
@[simp] theorem State.deliver_planner (l : LaneId) (m : LaneMessage) : (s.deliver l m).planner = s.planner := rfl
@[simp] theorem State.deliver_contexts (l : LaneId) (m : LaneMessage) : (s.deliver l m).contexts = s.contexts := rfl
@[simp] theorem State.deliver_stops (l : LaneId) (m : LaneMessage) : (s.deliver l m).stops = s.stops := rfl
@[simp] theorem State.deliver_pairs (l : LaneId) (m : LaneMessage) : (s.deliver l m).pairs = s.pairs := rfl
@[simp] theorem State.deliver_stations (l : LaneId) (m : LaneMessage) : (s.deliver l m).stations = s.stations := rfl
@[simp] theorem State.deliver_link (l : LaneId) (m : LaneMessage) : (s.deliver l m).link = s.link := rfl
@[simp] theorem State.deliver_ports (l : LaneId) (m : LaneMessage) : (s.deliver l m).ports = s.ports := rfl
@[simp] theorem State.deliver_loader (l : LaneId) (m : LaneMessage) : (s.deliver l m).loader = s.loader := rfl
@[simp] theorem State.deliver_messages (l : LaneId) (m : LaneMessage) : (s.deliver l m).messages = s.messages := rfl
@[simp] theorem State.deliver_get_axis (l : LaneId) (m : LaneMessage) (b : AxisId) : (s.deliver l m).axis b = s.axis b := rfl
@[simp] theorem State.deliver_get_port (l : LaneId) (m : LaneMessage) (q : Console) : (s.deliver l m).port q = s.port q := rfl
@[simp] theorem State.deliver_get_station (l : LaneId) (m : LaneMessage) (b : AxisId) : (s.deliver l m).station b = s.station b := rfl
@[simp] theorem State.deliver_get_context (l : LaneId) (m : LaneMessage) (k : LaneId) : (s.deliver l m).context k = s.context k := rfl
@[simp] theorem State.deliver_get_stop (l : LaneId) (m : LaneMessage) (b : AxisId) : (s.deliver l m).stop b = s.stop b := rfl
@[simp] theorem State.deliver_get_qualified (l : LaneId) (m : LaneMessage) (line' : Line) : (s.deliver l m).qualified line' = s.qualified line' := rfl
@[simp] theorem State.deliver_get_enabled (l : LaneId) (m : LaneMessage) (c' : Console) : (s.deliver l m).enabled c' = s.enabled c' := rfl
@[simp] theorem State.deliver_get_saving (l : LaneId) (m : LaneMessage) : (s.deliver l m).saving = s.saving := rfl
@[simp] theorem State.deliver_get_present (l : LaneId) (m : LaneMessage) (b : AxisId) : (s.deliver l m).present b = s.present b := rfl
@[simp] theorem State.deliver_get_online (l : LaneId) (m : LaneMessage) (b : AxisId) : (s.deliver l m).online b = s.online b := rfl

/-! deliverAll -/

@[simp] theorem State.deliverAll_pending (m : LaneMessage) : (s.deliverAll m).pending = s.pending := rfl
@[simp] theorem State.deliverAll_period (m : LaneMessage) : (s.deliverAll m).period = s.period := rfl
@[simp] theorem State.deliverAll_latch (m : LaneMessage) : (s.deliverAll m).latch = s.latch := rfl
@[simp] theorem State.deliverAll_lines (m : LaneMessage) : (s.deliverAll m).lines = s.lines := rfl
@[simp] theorem State.deliverAll_memory (m : LaneMessage) : (s.deliverAll m).memory = s.memory := rfl
@[simp] theorem State.deliverAll_axes (m : LaneMessage) : (s.deliverAll m).axes = s.axes := rfl
@[simp] theorem State.deliverAll_lanes (m : LaneMessage) : (s.deliverAll m).lanes = s.lanes.map (fun ln => { ln with inbox := ln.inbox ++ [m] }) := rfl
@[simp] theorem State.deliverAll_cues (m : LaneMessage) : (s.deliverAll m).cues = s.cues := rfl
@[simp] theorem State.deliverAll_planner (m : LaneMessage) : (s.deliverAll m).planner = s.planner := rfl
@[simp] theorem State.deliverAll_contexts (m : LaneMessage) : (s.deliverAll m).contexts = s.contexts := rfl
@[simp] theorem State.deliverAll_stops (m : LaneMessage) : (s.deliverAll m).stops = s.stops := rfl
@[simp] theorem State.deliverAll_pairs (m : LaneMessage) : (s.deliverAll m).pairs = s.pairs := rfl
@[simp] theorem State.deliverAll_stations (m : LaneMessage) : (s.deliverAll m).stations = s.stations := rfl
@[simp] theorem State.deliverAll_link (m : LaneMessage) : (s.deliverAll m).link = s.link := rfl
@[simp] theorem State.deliverAll_ports (m : LaneMessage) : (s.deliverAll m).ports = s.ports := rfl
@[simp] theorem State.deliverAll_loader (m : LaneMessage) : (s.deliverAll m).loader = s.loader := rfl
@[simp] theorem State.deliverAll_messages (m : LaneMessage) : (s.deliverAll m).messages = s.messages := rfl
@[simp] theorem State.deliverAll_get_axis (m : LaneMessage) (b : AxisId) : (s.deliverAll m).axis b = s.axis b := rfl
@[simp] theorem State.deliverAll_get_port (m : LaneMessage) (q : Console) : (s.deliverAll m).port q = s.port q := rfl
@[simp] theorem State.deliverAll_get_station (m : LaneMessage) (b : AxisId) : (s.deliverAll m).station b = s.station b := rfl
@[simp] theorem State.deliverAll_get_context (m : LaneMessage) (k : LaneId) : (s.deliverAll m).context k = s.context k := rfl
@[simp] theorem State.deliverAll_get_stop (m : LaneMessage) (b : AxisId) : (s.deliverAll m).stop b = s.stop b := rfl
@[simp] theorem State.deliverAll_get_qualified (m : LaneMessage) (line' : Line) : (s.deliverAll m).qualified line' = s.qualified line' := rfl
@[simp] theorem State.deliverAll_get_enabled (m : LaneMessage) (c' : Console) : (s.deliverAll m).enabled c' = s.enabled c' := rfl
@[simp] theorem State.deliverAll_get_saving (m : LaneMessage) : (s.deliverAll m).saving = s.saving := rfl
@[simp] theorem State.deliverAll_get_present (m : LaneMessage) (b : AxisId) : (s.deliverAll m).present b = s.present b := rfl
@[simp] theorem State.deliverAll_get_online (m : LaneMessage) (b : AxisId) : (s.deliverAll m).online b = s.online b := rfl

/-! withPending -/

@[simp] theorem State.withPending_pending (rest : List Instr) : (s.withPending rest).pending = rest := rfl
@[simp] theorem State.withPending_period (rest : List Instr) : (s.withPending rest).period = s.period := rfl
@[simp] theorem State.withPending_latch (rest : List Instr) : (s.withPending rest).latch = s.latch := rfl
@[simp] theorem State.withPending_lines (rest : List Instr) : (s.withPending rest).lines = s.lines := rfl
@[simp] theorem State.withPending_memory (rest : List Instr) : (s.withPending rest).memory = s.memory := rfl
@[simp] theorem State.withPending_axes (rest : List Instr) : (s.withPending rest).axes = s.axes := rfl
@[simp] theorem State.withPending_lanes (rest : List Instr) : (s.withPending rest).lanes = s.lanes := rfl
@[simp] theorem State.withPending_cues (rest : List Instr) : (s.withPending rest).cues = s.cues := rfl
@[simp] theorem State.withPending_planner (rest : List Instr) : (s.withPending rest).planner = s.planner := rfl
@[simp] theorem State.withPending_contexts (rest : List Instr) : (s.withPending rest).contexts = s.contexts := rfl
@[simp] theorem State.withPending_stops (rest : List Instr) : (s.withPending rest).stops = s.stops := rfl
@[simp] theorem State.withPending_pairs (rest : List Instr) : (s.withPending rest).pairs = s.pairs := rfl
@[simp] theorem State.withPending_stations (rest : List Instr) : (s.withPending rest).stations = s.stations := rfl
@[simp] theorem State.withPending_link (rest : List Instr) : (s.withPending rest).link = s.link := rfl
@[simp] theorem State.withPending_ports (rest : List Instr) : (s.withPending rest).ports = s.ports := rfl
@[simp] theorem State.withPending_loader (rest : List Instr) : (s.withPending rest).loader = s.loader := rfl
@[simp] theorem State.withPending_messages (rest : List Instr) : (s.withPending rest).messages = s.messages := rfl
@[simp] theorem State.withPending_get_lane (rest : List Instr) (k : LaneId) : (s.withPending rest).lane k = s.lane k := rfl
@[simp] theorem State.withPending_get_axis (rest : List Instr) (b : AxisId) : (s.withPending rest).axis b = s.axis b := rfl
@[simp] theorem State.withPending_get_port (rest : List Instr) (q : Console) : (s.withPending rest).port q = s.port q := rfl
@[simp] theorem State.withPending_get_station (rest : List Instr) (b : AxisId) : (s.withPending rest).station b = s.station b := rfl
@[simp] theorem State.withPending_get_context (rest : List Instr) (k : LaneId) : (s.withPending rest).context k = s.context k := rfl
@[simp] theorem State.withPending_get_stop (rest : List Instr) (b : AxisId) : (s.withPending rest).stop b = s.stop b := rfl
@[simp] theorem State.withPending_get_qualified (rest : List Instr) (line' : Line) : (s.withPending rest).qualified line' = s.qualified line' := rfl
@[simp] theorem State.withPending_get_enabled (rest : List Instr) (c' : Console) : (s.withPending rest).enabled c' = s.enabled c' := rfl
@[simp] theorem State.withPending_get_saving (rest : List Instr) : (s.withPending rest).saving = s.saving := rfl
@[simp] theorem State.withPending_get_present (rest : List Instr) (b : AxisId) : (s.withPending rest).present b = s.present b := rfl
@[simp] theorem State.withPending_get_online (rest : List Instr) (b : AxisId) : (s.withPending rest).online b = s.online b := rfl

/-! setAxisState -/

@[simp] theorem setAxisState_pending (a : AxisId) (st : AxisState) : (setAxisState a st s).pending = s.pending := rfl
@[simp] theorem setAxisState_period (a : AxisId) (st : AxisState) : (setAxisState a st s).period = s.period := rfl
@[simp] theorem setAxisState_latch (a : AxisId) (st : AxisState) : (setAxisState a st s).latch = s.latch := rfl
@[simp] theorem setAxisState_lines (a : AxisId) (st : AxisState) : (setAxisState a st s).lines = s.lines := rfl
@[simp] theorem setAxisState_memory (a : AxisId) (st : AxisState) : (setAxisState a st s).memory = s.memory := rfl
@[simp] theorem setAxisState_axes (a : AxisId) (st : AxisState) : (setAxisState a st s).axes = s.axes.modify a (fun ax => { ax with state := st, arriving := false }) := rfl
@[simp] theorem setAxisState_lanes (a : AxisId) (st : AxisState) : (setAxisState a st s).lanes = s.lanes := rfl
@[simp] theorem setAxisState_cues (a : AxisId) (st : AxisState) : (setAxisState a st s).cues = s.cues := rfl
@[simp] theorem setAxisState_planner (a : AxisId) (st : AxisState) : (setAxisState a st s).planner = s.planner := rfl
@[simp] theorem setAxisState_contexts (a : AxisId) (st : AxisState) : (setAxisState a st s).contexts = s.contexts := rfl
@[simp] theorem setAxisState_stops (a : AxisId) (st : AxisState) : (setAxisState a st s).stops = s.stops := rfl
@[simp] theorem setAxisState_pairs (a : AxisId) (st : AxisState) : (setAxisState a st s).pairs = s.pairs := rfl
@[simp] theorem setAxisState_stations (a : AxisId) (st : AxisState) : (setAxisState a st s).stations = s.stations := rfl
@[simp] theorem setAxisState_link (a : AxisId) (st : AxisState) : (setAxisState a st s).link = s.link := rfl
@[simp] theorem setAxisState_ports (a : AxisId) (st : AxisState) : (setAxisState a st s).ports = s.ports := rfl
@[simp] theorem setAxisState_loader (a : AxisId) (st : AxisState) : (setAxisState a st s).loader = s.loader := rfl
@[simp] theorem setAxisState_messages (a : AxisId) (st : AxisState) : (setAxisState a st s).messages = s.messages := rfl
@[simp] theorem setAxisState_get_lane (a : AxisId) (st : AxisState) (k : LaneId) : (setAxisState a st s).lane k = s.lane k := rfl
@[simp] theorem setAxisState_get_port (a : AxisId) (st : AxisState) (q : Console) : (setAxisState a st s).port q = s.port q := rfl
@[simp] theorem setAxisState_get_station (a : AxisId) (st : AxisState) (b : AxisId) : (setAxisState a st s).station b = s.station b := rfl
@[simp] theorem setAxisState_get_context (a : AxisId) (st : AxisState) (k : LaneId) : (setAxisState a st s).context k = s.context k := rfl
@[simp] theorem setAxisState_get_stop (a : AxisId) (st : AxisState) (b : AxisId) : (setAxisState a st s).stop b = s.stop b := rfl
@[simp] theorem setAxisState_get_qualified (a : AxisId) (st : AxisState) (line' : Line) : (setAxisState a st s).qualified line' = s.qualified line' := rfl
@[simp] theorem setAxisState_get_enabled (a : AxisId) (st : AxisState) (c' : Console) : (setAxisState a st s).enabled c' = s.enabled c' := rfl
@[simp] theorem setAxisState_get_saving (a : AxisId) (st : AxisState) : (setAxisState a st s).saving = s.saving := rfl
@[simp] theorem setAxisState_get_online (a : AxisId) (st : AxisState) (b : AxisId) : (setAxisState a st s).online b = s.online b := rfl

/-! askWithdrawal -/

@[simp] theorem askWithdrawal_pending (l : LaneId) : (askWithdrawal l s).pending = s.pending := rfl
@[simp] theorem askWithdrawal_period (l : LaneId) : (askWithdrawal l s).period = s.period := rfl
@[simp] theorem askWithdrawal_latch (l : LaneId) : (askWithdrawal l s).latch = s.latch := rfl
@[simp] theorem askWithdrawal_lines (l : LaneId) : (askWithdrawal l s).lines = s.lines := rfl
@[simp] theorem askWithdrawal_memory (l : LaneId) : (askWithdrawal l s).memory = s.memory := rfl
@[simp] theorem askWithdrawal_axes (l : LaneId) : (askWithdrawal l s).axes = s.axes := rfl
@[simp] theorem askWithdrawal_lanes (l : LaneId) : (askWithdrawal l s).lanes = s.lanes := rfl
@[simp] theorem askWithdrawal_cues (l : LaneId) : (askWithdrawal l s).cues = s.cues := rfl
@[simp] theorem askWithdrawal_planner (l : LaneId) : (askWithdrawal l s).planner = { s.planner with withdrawals := s.planner.withdrawals ++ [l] } := rfl
@[simp] theorem askWithdrawal_contexts (l : LaneId) : (askWithdrawal l s).contexts = s.contexts := rfl
@[simp] theorem askWithdrawal_stops (l : LaneId) : (askWithdrawal l s).stops = s.stops := rfl
@[simp] theorem askWithdrawal_pairs (l : LaneId) : (askWithdrawal l s).pairs = s.pairs := rfl
@[simp] theorem askWithdrawal_stations (l : LaneId) : (askWithdrawal l s).stations = s.stations := rfl
@[simp] theorem askWithdrawal_link (l : LaneId) : (askWithdrawal l s).link = s.link := rfl
@[simp] theorem askWithdrawal_ports (l : LaneId) : (askWithdrawal l s).ports = s.ports := rfl
@[simp] theorem askWithdrawal_loader (l : LaneId) : (askWithdrawal l s).loader = s.loader := rfl
@[simp] theorem askWithdrawal_messages (l : LaneId) : (askWithdrawal l s).messages = s.messages := rfl
@[simp] theorem askWithdrawal_get_lane (l : LaneId) (k : LaneId) : (askWithdrawal l s).lane k = s.lane k := rfl
@[simp] theorem askWithdrawal_get_axis (l : LaneId) (b : AxisId) : (askWithdrawal l s).axis b = s.axis b := rfl
@[simp] theorem askWithdrawal_get_port (l : LaneId) (q : Console) : (askWithdrawal l s).port q = s.port q := rfl
@[simp] theorem askWithdrawal_get_station (l : LaneId) (b : AxisId) : (askWithdrawal l s).station b = s.station b := rfl
@[simp] theorem askWithdrawal_get_context (l : LaneId) (k : LaneId) : (askWithdrawal l s).context k = s.context k := rfl
@[simp] theorem askWithdrawal_get_stop (l : LaneId) (b : AxisId) : (askWithdrawal l s).stop b = s.stop b := rfl
@[simp] theorem askWithdrawal_get_qualified (l : LaneId) (line' : Line) : (askWithdrawal l s).qualified line' = s.qualified line' := rfl
@[simp] theorem askWithdrawal_get_enabled (l : LaneId) (c' : Console) : (askWithdrawal l s).enabled c' = s.enabled c' := rfl
@[simp] theorem askWithdrawal_get_saving (l : LaneId) : (askWithdrawal l s).saving = s.saving := rfl
@[simp] theorem askWithdrawal_get_present (l : LaneId) (b : AxisId) : (askWithdrawal l s).present b = s.present b := rfl
@[simp] theorem askWithdrawal_get_online (l : LaneId) (b : AxisId) : (askWithdrawal l s).online b = s.online b := rfl

/-! setSlot -/

@[simp] theorem setSlot_pending (n : StepNo) (so : Option Step) : (setSlot n so s).pending = s.pending := rfl
@[simp] theorem setSlot_period (n : StepNo) (so : Option Step) : (setSlot n so s).period = s.period := rfl
@[simp] theorem setSlot_latch (n : StepNo) (so : Option Step) : (setSlot n so s).latch = s.latch := rfl
@[simp] theorem setSlot_lines (n : StepNo) (so : Option Step) : (setSlot n so s).lines = s.lines := rfl
@[simp] theorem setSlot_memory (n : StepNo) (so : Option Step) : (setSlot n so s).memory = s.memory := rfl
@[simp] theorem setSlot_axes (n : StepNo) (so : Option Step) : (setSlot n so s).axes = s.axes := rfl
@[simp] theorem setSlot_lanes (n : StepNo) (so : Option Step) : (setSlot n so s).lanes = s.lanes := rfl
@[simp] theorem setSlot_cues (n : StepNo) (so : Option Step) : (setSlot n so s).cues = { s.cues with slots := s.cues.slots.set n so } := rfl
@[simp] theorem setSlot_planner (n : StepNo) (so : Option Step) : (setSlot n so s).planner = s.planner := rfl
@[simp] theorem setSlot_contexts (n : StepNo) (so : Option Step) : (setSlot n so s).contexts = s.contexts := rfl
@[simp] theorem setSlot_stops (n : StepNo) (so : Option Step) : (setSlot n so s).stops = s.stops := rfl
@[simp] theorem setSlot_pairs (n : StepNo) (so : Option Step) : (setSlot n so s).pairs = s.pairs := rfl
@[simp] theorem setSlot_stations (n : StepNo) (so : Option Step) : (setSlot n so s).stations = s.stations := rfl
@[simp] theorem setSlot_link (n : StepNo) (so : Option Step) : (setSlot n so s).link = s.link := rfl
@[simp] theorem setSlot_ports (n : StepNo) (so : Option Step) : (setSlot n so s).ports = s.ports := rfl
@[simp] theorem setSlot_loader (n : StepNo) (so : Option Step) : (setSlot n so s).loader = s.loader := rfl
@[simp] theorem setSlot_messages (n : StepNo) (so : Option Step) : (setSlot n so s).messages = s.messages := rfl
@[simp] theorem setSlot_get_lane (n : StepNo) (so : Option Step) (k : LaneId) : (setSlot n so s).lane k = s.lane k := rfl
@[simp] theorem setSlot_get_axis (n : StepNo) (so : Option Step) (b : AxisId) : (setSlot n so s).axis b = s.axis b := rfl
@[simp] theorem setSlot_get_port (n : StepNo) (so : Option Step) (q : Console) : (setSlot n so s).port q = s.port q := rfl
@[simp] theorem setSlot_get_station (n : StepNo) (so : Option Step) (b : AxisId) : (setSlot n so s).station b = s.station b := rfl
@[simp] theorem setSlot_get_context (n : StepNo) (so : Option Step) (k : LaneId) : (setSlot n so s).context k = s.context k := rfl
@[simp] theorem setSlot_get_stop (n : StepNo) (so : Option Step) (b : AxisId) : (setSlot n so s).stop b = s.stop b := rfl
@[simp] theorem setSlot_get_qualified (n : StepNo) (so : Option Step) (line' : Line) : (setSlot n so s).qualified line' = s.qualified line' := rfl
@[simp] theorem setSlot_get_enabled (n : StepNo) (so : Option Step) (c' : Console) : (setSlot n so s).enabled c' = s.enabled c' := rfl
@[simp] theorem setSlot_get_saving (n : StepNo) (so : Option Step) : (setSlot n so s).saving = s.saving := rfl
@[simp] theorem setSlot_get_present (n : StepNo) (so : Option Step) (b : AxisId) : (setSlot n so s).present b = s.present b := rfl
@[simp] theorem setSlot_get_online (n : StepNo) (so : Option Step) (b : AxisId) : (setSlot n so s).online b = s.online b := rfl

/-! setPair -/

@[simp] theorem setPair_pending (n : PairId) (po : Option ClashPair) : (setPair n po s).pending = s.pending := rfl
@[simp] theorem setPair_period (n : PairId) (po : Option ClashPair) : (setPair n po s).period = s.period := rfl
@[simp] theorem setPair_latch (n : PairId) (po : Option ClashPair) : (setPair n po s).latch = s.latch := rfl
@[simp] theorem setPair_lines (n : PairId) (po : Option ClashPair) : (setPair n po s).lines = s.lines := rfl
@[simp] theorem setPair_memory (n : PairId) (po : Option ClashPair) : (setPair n po s).memory = s.memory := rfl
@[simp] theorem setPair_axes (n : PairId) (po : Option ClashPair) : (setPair n po s).axes = s.axes := rfl
@[simp] theorem setPair_lanes (n : PairId) (po : Option ClashPair) : (setPair n po s).lanes = s.lanes := rfl
@[simp] theorem setPair_cues (n : PairId) (po : Option ClashPair) : (setPair n po s).cues = s.cues := rfl
@[simp] theorem setPair_planner (n : PairId) (po : Option ClashPair) : (setPair n po s).planner = s.planner := rfl
@[simp] theorem setPair_contexts (n : PairId) (po : Option ClashPair) : (setPair n po s).contexts = s.contexts := rfl
@[simp] theorem setPair_stops (n : PairId) (po : Option ClashPair) : (setPair n po s).stops = s.stops := rfl
@[simp] theorem setPair_pairs (n : PairId) (po : Option ClashPair) : (setPair n po s).pairs = s.pairs.set n po := rfl
@[simp] theorem setPair_stations (n : PairId) (po : Option ClashPair) : (setPair n po s).stations = s.stations := rfl
@[simp] theorem setPair_link (n : PairId) (po : Option ClashPair) : (setPair n po s).link = s.link := rfl
@[simp] theorem setPair_ports (n : PairId) (po : Option ClashPair) : (setPair n po s).ports = s.ports := rfl
@[simp] theorem setPair_loader (n : PairId) (po : Option ClashPair) : (setPair n po s).loader = s.loader := rfl
@[simp] theorem setPair_messages (n : PairId) (po : Option ClashPair) : (setPair n po s).messages = s.messages := rfl
@[simp] theorem setPair_get_lane (n : PairId) (po : Option ClashPair) (k : LaneId) : (setPair n po s).lane k = s.lane k := rfl
@[simp] theorem setPair_get_axis (n : PairId) (po : Option ClashPair) (b : AxisId) : (setPair n po s).axis b = s.axis b := rfl
@[simp] theorem setPair_get_port (n : PairId) (po : Option ClashPair) (q : Console) : (setPair n po s).port q = s.port q := rfl
@[simp] theorem setPair_get_station (n : PairId) (po : Option ClashPair) (b : AxisId) : (setPair n po s).station b = s.station b := rfl
@[simp] theorem setPair_get_context (n : PairId) (po : Option ClashPair) (k : LaneId) : (setPair n po s).context k = s.context k := rfl
@[simp] theorem setPair_get_stop (n : PairId) (po : Option ClashPair) (b : AxisId) : (setPair n po s).stop b = s.stop b := rfl
@[simp] theorem setPair_get_qualified (n : PairId) (po : Option ClashPair) (line' : Line) : (setPair n po s).qualified line' = s.qualified line' := rfl
@[simp] theorem setPair_get_enabled (n : PairId) (po : Option ClashPair) (c' : Console) : (setPair n po s).enabled c' = s.enabled c' := rfl
@[simp] theorem setPair_get_saving (n : PairId) (po : Option ClashPair) : (setPair n po s).saving = s.saving := rfl
@[simp] theorem setPair_get_present (n : PairId) (po : Option ClashPair) (b : AxisId) : (setPair n po s).present b = s.present b := rfl
@[simp] theorem setPair_get_online (n : PairId) (po : Option ClashPair) (b : AxisId) : (setPair n po s).online b = s.online b := rfl

/-! setLine -/

@[simp] theorem setLine_pending (line : Line) (ls : LineState) : (setLine line ls s).pending = s.pending := rfl
@[simp] theorem setLine_period (line : Line) (ls : LineState) : (setLine line ls s).period = s.period := rfl
@[simp] theorem setLine_latch (line : Line) (ls : LineState) : (setLine line ls s).latch = s.latch := rfl
@[simp] theorem setLine_lines (line : Line) (ls : LineState) : (setLine line ls s).lines = s.lines.set (lineIndex line) ls := rfl
@[simp] theorem setLine_memory (line : Line) (ls : LineState) : (setLine line ls s).memory = s.memory := rfl
@[simp] theorem setLine_axes (line : Line) (ls : LineState) : (setLine line ls s).axes = s.axes := rfl
@[simp] theorem setLine_lanes (line : Line) (ls : LineState) : (setLine line ls s).lanes = s.lanes := rfl
@[simp] theorem setLine_cues (line : Line) (ls : LineState) : (setLine line ls s).cues = s.cues := rfl
@[simp] theorem setLine_planner (line : Line) (ls : LineState) : (setLine line ls s).planner = s.planner := rfl
@[simp] theorem setLine_contexts (line : Line) (ls : LineState) : (setLine line ls s).contexts = s.contexts := rfl
@[simp] theorem setLine_stops (line : Line) (ls : LineState) : (setLine line ls s).stops = s.stops := rfl
@[simp] theorem setLine_pairs (line : Line) (ls : LineState) : (setLine line ls s).pairs = s.pairs := rfl
@[simp] theorem setLine_stations (line : Line) (ls : LineState) : (setLine line ls s).stations = s.stations := rfl
@[simp] theorem setLine_link (line : Line) (ls : LineState) : (setLine line ls s).link = s.link := rfl
@[simp] theorem setLine_ports (line : Line) (ls : LineState) : (setLine line ls s).ports = s.ports := rfl
@[simp] theorem setLine_loader (line : Line) (ls : LineState) : (setLine line ls s).loader = s.loader := rfl
@[simp] theorem setLine_messages (line : Line) (ls : LineState) : (setLine line ls s).messages = s.messages := rfl
@[simp] theorem setLine_get_lane (line : Line) (ls : LineState) (k : LaneId) : (setLine line ls s).lane k = s.lane k := rfl
@[simp] theorem setLine_get_axis (line : Line) (ls : LineState) (b : AxisId) : (setLine line ls s).axis b = s.axis b := rfl
@[simp] theorem setLine_get_port (line : Line) (ls : LineState) (q : Console) : (setLine line ls s).port q = s.port q := rfl
@[simp] theorem setLine_get_station (line : Line) (ls : LineState) (b : AxisId) : (setLine line ls s).station b = s.station b := rfl
@[simp] theorem setLine_get_context (line : Line) (ls : LineState) (k : LaneId) : (setLine line ls s).context k = s.context k := rfl
@[simp] theorem setLine_get_stop (line : Line) (ls : LineState) (b : AxisId) : (setLine line ls s).stop b = s.stop b := rfl
@[simp] theorem setLine_get_saving (line : Line) (ls : LineState) : (setLine line ls s).saving = s.saving := rfl
@[simp] theorem setLine_get_present (line : Line) (ls : LineState) (b : AxisId) : (setLine line ls s).present b = s.present b := rfl
@[simp] theorem setLine_get_online (line : Line) (ls : LineState) (b : AxisId) : (setLine line ls s).online b = s.online b := rfl

/-! closeSlot -/

@[simp] theorem closeSlot_pending : (closeSlot s).pending = s.pending := rfl
@[simp] theorem closeSlot_period : (closeSlot s).period = s.period := rfl
@[simp] theorem closeSlot_latch : (closeSlot s).latch = s.latch := rfl
@[simp] theorem closeSlot_lines : (closeSlot s).lines = s.lines := rfl
@[simp] theorem closeSlot_memory : (closeSlot s).memory = s.memory := rfl
@[simp] theorem closeSlot_axes : (closeSlot s).axes = s.axes := rfl
@[simp] theorem closeSlot_lanes : (closeSlot s).lanes = s.lanes := rfl
@[simp] theorem closeSlot_cues : (closeSlot s).cues = s.cues := rfl
@[simp] theorem closeSlot_planner : (closeSlot s).planner = s.planner := rfl
@[simp] theorem closeSlot_contexts : (closeSlot s).contexts = s.contexts := rfl
@[simp] theorem closeSlot_stops : (closeSlot s).stops = s.stops := rfl
@[simp] theorem closeSlot_pairs : (closeSlot s).pairs = s.pairs := rfl
@[simp] theorem closeSlot_stations : (closeSlot s).stations = s.stations := rfl
@[simp] theorem closeSlot_link : (closeSlot s).link = { s.link with slot := none } := rfl
@[simp] theorem closeSlot_ports : (closeSlot s).ports = s.ports := rfl
@[simp] theorem closeSlot_loader : (closeSlot s).loader = s.loader := rfl
@[simp] theorem closeSlot_messages : (closeSlot s).messages = s.messages := rfl
@[simp] theorem closeSlot_get_lane (k : LaneId) : (closeSlot s).lane k = s.lane k := rfl
@[simp] theorem closeSlot_get_axis (b : AxisId) : (closeSlot s).axis b = s.axis b := rfl
@[simp] theorem closeSlot_get_port (q : Console) : (closeSlot s).port q = s.port q := rfl
@[simp] theorem closeSlot_get_station (b : AxisId) : (closeSlot s).station b = s.station b := rfl
@[simp] theorem closeSlot_get_context (k : LaneId) : (closeSlot s).context k = s.context k := rfl
@[simp] theorem closeSlot_get_stop (b : AxisId) : (closeSlot s).stop b = s.stop b := rfl
@[simp] theorem closeSlot_get_qualified (line' : Line) : (closeSlot s).qualified line' = s.qualified line' := rfl
@[simp] theorem closeSlot_get_enabled (c' : Console) : (closeSlot s).enabled c' = s.enabled c' := rfl
@[simp] theorem closeSlot_get_saving  : (closeSlot s).saving = s.saving := rfl
@[simp] theorem closeSlot_get_present (b : AxisId) : (closeSlot s).present b = s.present b := rfl
@[simp] theorem closeSlot_get_online (b : AxisId) : (closeSlot s).online b = s.online b := rfl

/-! queueReply -/

@[simp] theorem queueReply_pending (p : Console) (r : PortReply) : (queueReply p r s).pending = s.pending := rfl
@[simp] theorem queueReply_period (p : Console) (r : PortReply) : (queueReply p r s).period = s.period := rfl
@[simp] theorem queueReply_latch (p : Console) (r : PortReply) : (queueReply p r s).latch = s.latch := rfl
@[simp] theorem queueReply_lines (p : Console) (r : PortReply) : (queueReply p r s).lines = s.lines := rfl
@[simp] theorem queueReply_memory (p : Console) (r : PortReply) : (queueReply p r s).memory = s.memory := rfl
@[simp] theorem queueReply_axes (p : Console) (r : PortReply) : (queueReply p r s).axes = s.axes := rfl
@[simp] theorem queueReply_lanes (p : Console) (r : PortReply) : (queueReply p r s).lanes = s.lanes := rfl
@[simp] theorem queueReply_cues (p : Console) (r : PortReply) : (queueReply p r s).cues = s.cues := rfl
@[simp] theorem queueReply_planner (p : Console) (r : PortReply) : (queueReply p r s).planner = s.planner := rfl
@[simp] theorem queueReply_contexts (p : Console) (r : PortReply) : (queueReply p r s).contexts = s.contexts := rfl
@[simp] theorem queueReply_stops (p : Console) (r : PortReply) : (queueReply p r s).stops = s.stops := rfl
@[simp] theorem queueReply_pairs (p : Console) (r : PortReply) : (queueReply p r s).pairs = s.pairs := rfl
@[simp] theorem queueReply_stations (p : Console) (r : PortReply) : (queueReply p r s).stations = s.stations := rfl
@[simp] theorem queueReply_link (p : Console) (r : PortReply) : (queueReply p r s).link = s.link := rfl
@[simp] theorem queueReply_ports (p : Console) (r : PortReply) : (queueReply p r s).ports = s.ports.modify p (fun pt => { pt with transmit := pt.transmit ++ [r] }) := rfl
@[simp] theorem queueReply_loader (p : Console) (r : PortReply) : (queueReply p r s).loader = s.loader := rfl
@[simp] theorem queueReply_messages (p : Console) (r : PortReply) : (queueReply p r s).messages = s.messages := rfl
@[simp] theorem queueReply_get_lane (p : Console) (r : PortReply) (k : LaneId) : (queueReply p r s).lane k = s.lane k := rfl
@[simp] theorem queueReply_get_axis (p : Console) (r : PortReply) (b : AxisId) : (queueReply p r s).axis b = s.axis b := rfl
@[simp] theorem queueReply_get_station (p : Console) (r : PortReply) (b : AxisId) : (queueReply p r s).station b = s.station b := rfl
@[simp] theorem queueReply_get_context (p : Console) (r : PortReply) (k : LaneId) : (queueReply p r s).context k = s.context k := rfl
@[simp] theorem queueReply_get_stop (p : Console) (r : PortReply) (b : AxisId) : (queueReply p r s).stop b = s.stop b := rfl
@[simp] theorem queueReply_get_qualified (p : Console) (r : PortReply) (line' : Line) : (queueReply p r s).qualified line' = s.qualified line' := rfl
@[simp] theorem queueReply_get_enabled (p : Console) (r : PortReply) (c' : Console) : (queueReply p r s).enabled c' = s.enabled c' := rfl
@[simp] theorem queueReply_get_saving (p : Console) (r : PortReply) : (queueReply p r s).saving = s.saving := rfl
@[simp] theorem queueReply_get_present (p : Console) (r : PortReply) (b : AxisId) : (queueReply p r s).present b = s.present b := rfl
@[simp] theorem queueReply_get_online (p : Console) (r : PortReply) (b : AxisId) : (queueReply p r s).online b = s.online b := rfl

/-! countFrameError -/

@[simp] theorem countFrameError_pending (p : Console) : (countFrameError p s).pending = s.pending := rfl
@[simp] theorem countFrameError_period (p : Console) : (countFrameError p s).period = s.period := rfl
@[simp] theorem countFrameError_latch (p : Console) : (countFrameError p s).latch = s.latch := rfl
@[simp] theorem countFrameError_lines (p : Console) : (countFrameError p s).lines = s.lines := rfl
@[simp] theorem countFrameError_memory (p : Console) : (countFrameError p s).memory = s.memory := rfl
@[simp] theorem countFrameError_axes (p : Console) : (countFrameError p s).axes = s.axes := rfl
@[simp] theorem countFrameError_lanes (p : Console) : (countFrameError p s).lanes = s.lanes := rfl
@[simp] theorem countFrameError_cues (p : Console) : (countFrameError p s).cues = s.cues := rfl
@[simp] theorem countFrameError_planner (p : Console) : (countFrameError p s).planner = s.planner := rfl
@[simp] theorem countFrameError_contexts (p : Console) : (countFrameError p s).contexts = s.contexts := rfl
@[simp] theorem countFrameError_stops (p : Console) : (countFrameError p s).stops = s.stops := rfl
@[simp] theorem countFrameError_pairs (p : Console) : (countFrameError p s).pairs = s.pairs := rfl
@[simp] theorem countFrameError_stations (p : Console) : (countFrameError p s).stations = s.stations := rfl
@[simp] theorem countFrameError_link (p : Console) : (countFrameError p s).link = s.link := rfl
@[simp] theorem countFrameError_ports (p : Console) : (countFrameError p s).ports = s.ports.modify p (fun pt => { pt with frameErrors := bump pt.frameErrors }) := rfl
@[simp] theorem countFrameError_loader (p : Console) : (countFrameError p s).loader = s.loader := rfl
@[simp] theorem countFrameError_messages (p : Console) : (countFrameError p s).messages = s.messages := rfl
@[simp] theorem countFrameError_get_lane (p : Console) (k : LaneId) : (countFrameError p s).lane k = s.lane k := rfl
@[simp] theorem countFrameError_get_axis (p : Console) (b : AxisId) : (countFrameError p s).axis b = s.axis b := rfl
@[simp] theorem countFrameError_get_station (p : Console) (b : AxisId) : (countFrameError p s).station b = s.station b := rfl
@[simp] theorem countFrameError_get_context (p : Console) (k : LaneId) : (countFrameError p s).context k = s.context k := rfl
@[simp] theorem countFrameError_get_stop (p : Console) (b : AxisId) : (countFrameError p s).stop b = s.stop b := rfl
@[simp] theorem countFrameError_get_qualified (p : Console) (line' : Line) : (countFrameError p s).qualified line' = s.qualified line' := rfl
@[simp] theorem countFrameError_get_enabled (p : Console) (c' : Console) : (countFrameError p s).enabled c' = s.enabled c' := rfl
@[simp] theorem countFrameError_get_saving (p : Console) : (countFrameError p s).saving = s.saving := rfl
@[simp] theorem countFrameError_get_present (p : Console) (b : AxisId) : (countFrameError p s).present b = s.present b := rfl
@[simp] theorem countFrameError_get_online (p : Console) (b : AxisId) : (countFrameError p s).online b = s.online b := rfl

/-! clearHold -/

@[simp] theorem clearHold_pending (l : LaneId) : (clearHold l s).pending = s.pending := rfl
@[simp] theorem clearHold_period (l : LaneId) : (clearHold l s).period = s.period := rfl
@[simp] theorem clearHold_latch (l : LaneId) : (clearHold l s).latch = s.latch := rfl
@[simp] theorem clearHold_lines (l : LaneId) : (clearHold l s).lines = s.lines := rfl
@[simp] theorem clearHold_memory (l : LaneId) : (clearHold l s).memory = s.memory := rfl
@[simp] theorem clearHold_axes (l : LaneId) : (clearHold l s).axes = s.axes := rfl
@[simp] theorem clearHold_lanes (l : LaneId) : (clearHold l s).lanes = s.lanes.modify l (fun ln => { ln with holdLatch := false }) := rfl
@[simp] theorem clearHold_cues (l : LaneId) : (clearHold l s).cues = s.cues := rfl
@[simp] theorem clearHold_planner (l : LaneId) : (clearHold l s).planner = s.planner := rfl
@[simp] theorem clearHold_contexts (l : LaneId) : (clearHold l s).contexts = s.contexts := rfl
@[simp] theorem clearHold_stops (l : LaneId) : (clearHold l s).stops = s.stops := rfl
@[simp] theorem clearHold_pairs (l : LaneId) : (clearHold l s).pairs = s.pairs := rfl
@[simp] theorem clearHold_stations (l : LaneId) : (clearHold l s).stations = s.stations := rfl
@[simp] theorem clearHold_link (l : LaneId) : (clearHold l s).link = s.link := rfl
@[simp] theorem clearHold_ports (l : LaneId) : (clearHold l s).ports = s.ports := rfl
@[simp] theorem clearHold_loader (l : LaneId) : (clearHold l s).loader = s.loader := rfl
@[simp] theorem clearHold_messages (l : LaneId) : (clearHold l s).messages = s.messages := rfl
@[simp] theorem clearHold_get_axis (l : LaneId) (b : AxisId) : (clearHold l s).axis b = s.axis b := rfl
@[simp] theorem clearHold_get_port (l : LaneId) (q : Console) : (clearHold l s).port q = s.port q := rfl
@[simp] theorem clearHold_get_station (l : LaneId) (b : AxisId) : (clearHold l s).station b = s.station b := rfl
@[simp] theorem clearHold_get_context (l : LaneId) (k : LaneId) : (clearHold l s).context k = s.context k := rfl
@[simp] theorem clearHold_get_stop (l : LaneId) (b : AxisId) : (clearHold l s).stop b = s.stop b := rfl
@[simp] theorem clearHold_get_qualified (l : LaneId) (line' : Line) : (clearHold l s).qualified line' = s.qualified line' := rfl
@[simp] theorem clearHold_get_enabled (l : LaneId) (c' : Console) : (clearHold l s).enabled c' = s.enabled c' := rfl
@[simp] theorem clearHold_get_saving (l : LaneId) : (clearHold l s).saving = s.saving := rfl
@[simp] theorem clearHold_get_present (l : LaneId) (b : AxisId) : (clearHold l s).present b = s.present b := rfl
@[simp] theorem clearHold_get_online (l : LaneId) (b : AxisId) : (clearHold l s).online b = s.online b := rfl

/-! recordHalt -/

@[simp] theorem recordHalt_pending (l : LaneId) (cause : HaltCause) : (recordHalt l cause s).pending = s.pending := rfl
@[simp] theorem recordHalt_period (l : LaneId) (cause : HaltCause) : (recordHalt l cause s).period = s.period := rfl
@[simp] theorem recordHalt_latch (l : LaneId) (cause : HaltCause) : (recordHalt l cause s).latch = s.latch := rfl
@[simp] theorem recordHalt_lines (l : LaneId) (cause : HaltCause) : (recordHalt l cause s).lines = s.lines := rfl
@[simp] theorem recordHalt_memory (l : LaneId) (cause : HaltCause) : (recordHalt l cause s).memory = s.memory := rfl
@[simp] theorem recordHalt_axes (l : LaneId) (cause : HaltCause) : (recordHalt l cause s).axes = s.axes := rfl
@[simp] theorem recordHalt_lanes (l : LaneId) (cause : HaltCause) : (recordHalt l cause s).lanes = s.lanes.modify l (fun ln => { ln with haltCause := cause }) := rfl
@[simp] theorem recordHalt_cues (l : LaneId) (cause : HaltCause) : (recordHalt l cause s).cues = s.cues := rfl
@[simp] theorem recordHalt_planner (l : LaneId) (cause : HaltCause) : (recordHalt l cause s).planner = s.planner := rfl
@[simp] theorem recordHalt_contexts (l : LaneId) (cause : HaltCause) : (recordHalt l cause s).contexts = s.contexts := rfl
@[simp] theorem recordHalt_stops (l : LaneId) (cause : HaltCause) : (recordHalt l cause s).stops = s.stops := rfl
@[simp] theorem recordHalt_pairs (l : LaneId) (cause : HaltCause) : (recordHalt l cause s).pairs = s.pairs := rfl
@[simp] theorem recordHalt_stations (l : LaneId) (cause : HaltCause) : (recordHalt l cause s).stations = s.stations := rfl
@[simp] theorem recordHalt_link (l : LaneId) (cause : HaltCause) : (recordHalt l cause s).link = s.link := rfl
@[simp] theorem recordHalt_ports (l : LaneId) (cause : HaltCause) : (recordHalt l cause s).ports = s.ports := rfl
@[simp] theorem recordHalt_loader (l : LaneId) (cause : HaltCause) : (recordHalt l cause s).loader = s.loader := rfl
@[simp] theorem recordHalt_messages (l : LaneId) (cause : HaltCause) : (recordHalt l cause s).messages = s.messages := rfl
@[simp] theorem recordHalt_get_axis (l : LaneId) (cause : HaltCause) (b : AxisId) : (recordHalt l cause s).axis b = s.axis b := rfl
@[simp] theorem recordHalt_get_port (l : LaneId) (cause : HaltCause) (q : Console) : (recordHalt l cause s).port q = s.port q := rfl
@[simp] theorem recordHalt_get_station (l : LaneId) (cause : HaltCause) (b : AxisId) : (recordHalt l cause s).station b = s.station b := rfl
@[simp] theorem recordHalt_get_context (l : LaneId) (cause : HaltCause) (k : LaneId) : (recordHalt l cause s).context k = s.context k := rfl
@[simp] theorem recordHalt_get_stop (l : LaneId) (cause : HaltCause) (b : AxisId) : (recordHalt l cause s).stop b = s.stop b := rfl
@[simp] theorem recordHalt_get_qualified (l : LaneId) (cause : HaltCause) (line' : Line) : (recordHalt l cause s).qualified line' = s.qualified line' := rfl
@[simp] theorem recordHalt_get_enabled (l : LaneId) (cause : HaltCause) (c' : Console) : (recordHalt l cause s).enabled c' = s.enabled c' := rfl
@[simp] theorem recordHalt_get_saving (l : LaneId) (cause : HaltCause) : (recordHalt l cause s).saving = s.saving := rfl
@[simp] theorem recordHalt_get_present (l : LaneId) (cause : HaltCause) (b : AxisId) : (recordHalt l cause s).present b = s.present b := rfl
@[simp] theorem recordHalt_get_online (l : LaneId) (cause : HaltCause) (b : AxisId) : (recordHalt l cause s).online b = s.online b := rfl
/-! ### The changed record, read back -/

theorem lane_updLane (l k : LaneId) (f : Lane → Lane) :
    (s.updLane l f).lane k = if l = k then f (s.lane l) else s.lane k := Table.get_modify _ _ _ _
@[simp] theorem lane_updLane_same (l : LaneId) (f : Lane → Lane) : (s.updLane l f).lane l = f (s.lane l) :=
  Table.get_modify_same _ _ _
theorem axis_updAxis (a b : AxisId) (f : Axis → Axis) :
    (s.updAxis a f).axis b = if a = b then f (s.axis a) else s.axis b := Table.get_modify _ _ _ _
@[simp] theorem axis_updAxis_same (a : AxisId) (f : Axis → Axis) : (s.updAxis a f).axis a = f (s.axis a) :=
  Table.get_modify_same _ _ _
theorem port_updPort (p q : Console) (f : Port → Port) :
    (s.updPort p f).port q = if p = q then f (s.port p) else s.port q := Table.get_modify _ _ _ _
@[simp] theorem port_updPort_same (p : Console) (f : Port → Port) : (s.updPort p f).port p = f (s.port p) :=
  Table.get_modify_same _ _ _
theorem station_setStation (a b : AxisId) (e : Option StationEntry) :
    (s.setStation a e).station b = if a = b then e else s.station b := Table.get_set _ _ _ _
@[simp] theorem station_setStation_same (a : AxisId) (e : Option StationEntry) : (s.setStation a e).station a = e :=
  Table.get_set_same _ _ _
theorem context_setContext (l k : LaneId) (c : Option MotionContext) :
    (s.setContext l c).context k = if l = k then c else s.context k := Table.get_set _ _ _ _
@[simp] theorem context_setContext_same (l : LaneId) (c : Option MotionContext) :
    (s.setContext l c).context l = c := Table.get_set_same _ _ _
theorem stop_setStop (a b : AxisId) (r : Option StopRecord) :
    (s.setStop a r).stop b = if a = b then r else s.stop b := Table.get_set _ _ _ _
@[simp] theorem stop_setStop_same (a : AxisId) (r : Option StopRecord) : (s.setStop a r).stop a = r :=
  Table.get_set_same _ _ _
theorem lane_deliver (l k : LaneId) (m : LaneMessage) :
    (s.deliver l m).lane k = if l = k then { s.lane l with inbox := (s.lane l).inbox ++ [m] } else s.lane k :=
  Table.get_modify _ _ _ _
@[simp] theorem lane_deliverAll (k : LaneId) (m : LaneMessage) :
    (s.deliverAll m).lane k = { s.lane k with inbox := (s.lane k).inbox ++ [m] } := Table.get_map _ _ _
theorem axis_setAxisState (a b : AxisId) (st : AxisState) :
    (setAxisState a st s).axis b = if a = b then { s.axis a with state := st, arriving := false } else s.axis b :=
  Table.get_modify _ _ _ _

end Sys2Proof.Machine
end

