-- ==== Sys2Proof/Laws/Requests.lean ====
section
/-! SUPPORT. What posting, offering and answering do: the one lemma for each, which a proof about a request cites. -/

namespace Sys2Proof.Machine

theorem offer_eq (e : EventRecord) (s : State) : offer e s = { s with ports := s.ports.map (offerPort e) } := rfl

/-- Offering a list of events changes the ports alone, each by the events in order (R177). -/
theorem offer_foldl (es : List EventRecord) (s : State) :
    es.foldl (fun t e => offer e t) s = { s with ports := s.ports.map (offered es) } := by
  induction es generalizing s with
  | nil =>
    have : s.ports.map (offered []) = s.ports := Table.ext_get (by intro i; simp [offered])
    simp [this]
  | cons e rest ih =>
    rw [List.foldl_cons, ih, offer_eq]
    simp only [Table.map_map]
    rfl

/-- Offering all that waits empties the posted events (R177). -/
theorem offerAll_eq (s : State) :
    offerAll s =
      { s with ports := s.ports.map (offered s.messages.posted), messages := { s.messages with posted := [] } } := by
  simp [offerAll, offer_foldl]

@[simp] theorem emitAll_nil (s : State) : emitAll [] s = s := by
  simp [emitAll, State.updMessages]

theorem emit_eq_emitAll (e : EventBody) (s : State) : s.emit e = emitAll [e] s := rfl

@[simp] theorem emitAll_emit (es : List EventBody) (e : EventBody) (s : State) :
    (emitAll es s).emit e = emitAll (es ++ [e]) s := by
  simp [emitAll, State.emit, State.updMessages]

/-- A request taken: its own change, its events offered behind those waiting, its reply queued (R173). -/
theorem finish_eq {p : Console} {tag kind : Byte} {act : State → State × Answer} {s u : State}
    {es : List EventBody} {a : Answer} (h : act s = (emitAll es u, a))
    (hu : u.messages.posted = s.messages.posted) :
    finish p tag kind act s = answered p u es ⟨kind, tag, a.code, a.data⟩ := by
  have hlen : (emitAll es u).messages.posted = s.messages.posted ++ es.map (fun e => ⟨e, u.period⟩) := by
    simp [emitAll, hu]
  have hnew : offerNew s.messages.posted.length (emitAll es u) =
      if es = [] then u else
        { u with
          ports := u.ports.map (offered (u.messages.posted ++ es.map (fun e => ⟨e, u.period⟩)))
          messages := { u.messages with posted := [] } } := by
    unfold offerNew
    by_cases hes : es = []
    · simp [hes, hu]
    · rw [hlen, if_neg, if_neg hes, offerAll_eq]
      · simp [emitAll]
      · intro hl
        have : es.length = 0 := by simpa using hl
        exact hes (List.length_eq_zero_iff.1 this)
  unfold finish
  simp only [h, hnew]
  unfold answered queueReply State.updPort
  by_cases hes : es = []
  · simp [hes, Table.modify_modify]
  · simp [hes, Table.modify_modify]

/-- A request that changes nothing and posts nothing: only its reply is left (R173). -/
theorem finish_quiet {p : Console} {tag kind : Byte} {act : State → State × Answer} {s u : State} {a : Answer}
    (h : act s = (u, a)) (hu : u.messages.posted = s.messages.posted) :
    finish p tag kind act s = answered p u [] ⟨kind, tag, a.code, a.data⟩ :=
  finish_eq (es := []) (by simpa using h) hu

/-- MASTER CLEAR taken: its change empties the events that waited, and its reply alone is left (R183). -/
theorem finish_emptied {p : Console} {tag kind : Byte} {act : State → State × Answer} {s u : State} {a : Answer}
    (h : act s = (u, a)) (hu : u.messages.posted = []) :
    finish p tag kind act s = answered p u [] ⟨kind, tag, a.code, a.data⟩ := by
  have hnew : offerNew s.messages.posted.length u = u := by
    have hp : u.ports.map (offered []) = u.ports := Table.ext_get (fun i => by simp [offered])
    have hm : ({ u.messages with posted := [] } : Messages) = u.messages := by rw [← hu]
    rw [offerNew, offerAll_eq, hu, hp, hm]
    exact ite_self u
  simp only [finish, h, hnew]
  simp [answered, queueReply, State.updPort, Table.modify_modify]

/-- A request that is taken goes to its owning block (R172, R173). -/
theorem serve_of_taken {p : Console} {tag kind : Byte} {self : Instr} {act : State → State × Answer} {s : State}
    (h : Taken s p self) : serve p tag kind self act s = finish p tag kind act s := by
  unfold serve
  split
  · rfl
  · rename_i hne
    rcases h with h | ⟨h1, h2, h3⟩
    · exact absurd h hne
    · simp [admissionOf, Nat.not_le.2 h3, h2, h1]

/-- Everything a request command can do: taken, an overrun, or answered at once by its port (R172). -/
theorem serve_cases (p : Console) (tag kind : Byte) (self : Instr) (act : State → State × Answer) (s : State) :
    serve p tag kind self act s = finish p tag kind act s ∨
      serve p tag kind self act s = countFrameError p s ∨
      ∃ code, serve p tag kind self act s = queueReply p ⟨kind, tag, code, []⟩ s := by
  unfold serve
  split
  · exact .inl rfl
  · split
    · exact .inr (.inl rfl)
    · exact .inr (.inr ⟨_, rfl⟩)
    · exact .inl rfl

/-- The load taken: the image installed, its outcome the configuration state, and CONFIG_RESULT offered behind what was
waiting (R188). -/
theorem completeLoad_eq (found : List (Nat × Byte)) (s : State) (h : s.loader.state = .loading) :
    completeLoad found s =
      { install (judgeImage (s.memory.writeAll found).image).2 s with
        memory := s.memory.writeAll found
        loader := { s.loader with state := (judgeImage (s.memory.writeAll found).image).1.state }
        ports := s.ports.map (offered (s.messages.posted ++
          [⟨.configResult (judgeImage (s.memory.writeAll found).image).1, s.period⟩]))
        messages := { s.messages with posted := [] } } := by
  simp only [completeLoad, if_pos h, offerAll_eq]
  generalize judgeImage (s.memory.writeAll found).image = verdict
  rfl

/-- An event of a class the filter passes, offered to a port with an empty queue: it is the queue, and ATTENTION is high
(R178, R179). -/
theorem offered_to_empty (e : EventRecord) (pt : Port) (h : pt.events = []) (hf : e.body.cls ≤ pt.filter) :
    offered [e] pt = { pt with events := [e] } ∧ (offered [e] pt).attention = true := by
  simp [offered, offerPort, hf, h, Config.eventQueueSize, Port.attention]

end Sys2Proof.Machine
end

