-- ==== Sys2Proof/Laws/Ops.lean ====
section
/-! SUPPORT. What the shared operations of Ops and Lanes do, said once: a change of state, a claim and a release, a fault
applied, a write of a setpoint and the gap check behind it, and a lane that stands down. -/

namespace Sys2Proof.Machine

variable (s : State) (l : LaneId) (a : AxisId)

/-! ### A lane's change of state (R56) -/

theorem changeState_same {st : LaneState} (h : (s.lane l).state = st) : changeState l st s = s := by
  simp [changeState, h]

theorem changeState_eq {st : LaneState} (h : (s.lane l).state ≠ st) :
    changeState l st s =
      emitAll [.laneState l (s.lane l).state st (s.lane l).haltCause]
        (s.updLane l (fun ln => { ln with state := st })) := by
  simp only [changeState, if_neg h]
  rfl

/-- A change of state leaves everything but the lane's state and the posted events. -/
theorem changeState_frame (st : LaneState) :
    { changeState l st s with lanes := s.lanes, messages := s.messages } = s := by
  unfold changeState
  dsimp only
  split <;> rfl

/-! ### Claims and releases (R35, R37) -/

theorem grant_claimSet (as : List AxisId) : ((grant l as s).lane l).claimSet = as := by
  simp [grant, State.lane]

theorem grant_axis (as : List AxisId) :
    (grant l as s).axis a = { s.axis a with
      owner := if a ∈ as then some l else if (s.axis a).owner = some l then none else (s.axis a).owner } := by
  by_cases h : a ∈ as
  · simp [grant, State.axis, h]
  · by_cases h2 : (s.axes.get a).owner = some l <;> simp [grant, State.axis, h, h2]

theorem claim_ok {as : List AxisId} {t : State} (h : claim l as s = .ok t) :
    t = grant l as s ∧ ∀ b ∈ as, claimTest s l b = none := by
  unfold claim at h
  split at h
  · simp at h
  · rename_i hn
    exact ⟨(Except.ok.inj h).symm, fun b hb => List.findSome?_eq_none_iff.1 hn b hb⟩

theorem release_eq :
    release l s = { s with
      axes := disowned l s.axes
      lanes := s.lanes.modify l (fun ln => { ln with claimSet := [] }) } := rfl

theorem disowned_get (axes : Table 48 Axis) :
    (disowned l axes).get a = { axes.get a with
      owner := if (axes.get a).owner = some l then none else (axes.get a).owner } := by
  by_cases h : (axes.get a).owner = some l <;> simp [disowned, h]

/-! ### Faults (R10) -/

/-- The states in which a fault request acts. -/
theorem travelling_iff (st : AxisState) : st.travelling = true ↔ st = .moving ∨ st = .stopping := by
  cases st <;> simp [AxisState.travelling]

/-- A fault request finds nothing to do on an axis in any other state. -/
theorem applyFault_unfit (cause : FaultCause) (h : (s.axis a).state ∉ [AxisState.rest, .moving, .stopping]) :
    applyFault a cause s = s := by
  unfold applyFault
  split <;> simp_all

/-- A fault changes the one axis, its stop record, the posted events and the owner's inbox. -/
theorem applyFault_frame (cause : FaultCause) :
    { applyFault a cause s with
      axes := s.axes, stops := s.stops, lanes := s.lanes, messages := s.messages } = s := by
  unfold applyFault
  split
  all_goals first | rfl | (dsimp only; split <;> rfl)

theorem applyFault_axis_of_ne (cause : FaultCause) (b : AxisId) (h : a ≠ b) :
    (applyFault a cause s).axis b = s.axis b := by
  unfold applyFault
  split
  all_goals first
    | rfl
    | (dsimp only; split <;> simp [setAxisState, State.axis, State.updAxis, State.setStop, State.emit,
        State.updMessages, State.deliver, State.updLane, Table.get_modify_of_ne _ _ h])

/-- A fault on an axis fit for it, as one update of the records it touches. -/
theorem applyFault_fit (cause : FaultCause) (h : (s.axis a).state ∈ [AxisState.rest, .moving, .stopping]) :
    applyFault a cause s = emitAll [.axisFault a cause (s.axis a).owner] { s with
      axes := s.axes.modify a (fun ax => { ax with state := .faulted cause, arriving := false })
      stops := s.stops.set a none
      lanes := s.lanes.mapIdx (fun k ln =>
        if (s.axis a).owner = some k then { ln with inbox := ln.inbox ++ [.fault a] } else ln) } := by
  have key : ∀ k, s.lanes.modify k (fun ln => { ln with inbox := ln.inbox ++ [.fault a] }) =
      s.lanes.mapIdx (fun j ln => if k = j then { ln with inbox := ln.inbox ++ [.fault a] } else ln) := by
    intro k
    refine Table.ext_get (fun j => ?_)
    by_cases hj : k = j
    · subst hj; simp
    · simp [Table.get_modify_of_ne _ _ hj, hj]
  have none_ : s.lanes = s.lanes.mapIdx (fun _ ln => ln) := Table.ext_get (fun j => by simp)
  have h' : (s.axes.get a).state ∈ [AxisState.rest, .moving, .stopping] := h
  simp only [List.mem_cons, List.not_mem_nil, or_false] at h'
  rcases h' with h' | h' | h' <;> cases ho : (s.axes.get a).owner <;>
    simp [applyFault, State.axis, h', ho, setAxisState, State.emit, State.setStop, State.deliver, State.updAxis,
      State.updLane, State.updMessages, emitAll, key, ← none_]

/-- What one cause asked for on each of a list of axes does: the axes fit for it, each once and in the list's order, are
FAULTED, their stop records gone, an AXIS_FAULT posted and a notice sent to the owner of each. -/
theorem applyFault_all (cause : FaultCause) (xs : List AxisId) :
    ∃ hit : List AxisId, hit.Sublist xs ∧ hit.Nodup ∧
      (∀ b, b ∈ hit ↔ b ∈ xs ∧ (s.axis b).state ∈ [AxisState.rest, .moving, .stopping]) ∧
      xs.foldl (fun t b => applyFault b cause t) s =
        emitAll (hit.map (fun b => .axisFault b cause (s.axis b).owner)) { s with
          axes := s.axes.mapIdx (fun b ax =>
            if b ∈ hit then { ax with state := .faulted cause, arriving := false } else ax)
          stops := s.stops.mapIdx (fun b r => if b ∈ hit then none else r)
          lanes := s.lanes.mapIdx (fun k ln =>
            { ln with inbox := ln.inbox ++ (hit.filter (fun b => decide ((s.axis b).owner = some k))).map .fault }) } := by
  induction xs generalizing s with
  | nil =>
    refine ⟨[], List.Sublist.refl _, List.nodup_nil, by simp, ?_⟩
    have h1 : s.axes.mapIdx (fun _ ax => ax) = s.axes := Table.ext_get (fun j => by simp)
    have h2 : s.stops.mapIdx (fun _ r => r) = s.stops := Table.ext_get (fun j => by simp)
    have h3 : s.lanes.mapIdx (fun _ ln => ({ ln with inbox := ln.inbox ++ [] } : Lane)) = s.lanes :=
      Table.ext_get (fun j => by simp)
    simp only [List.not_mem_nil, if_false, h1, h2, List.filter_nil, List.map_nil, h3, List.foldl_nil, emitAll_nil]
  | cons b rest ih =>
    by_cases hb : (s.axis b).state ∈ [AxisState.rest, .moving, .stopping]
    · rw [List.foldl_cons, applyFault_fit s b cause hb]
      set u : State := emitAll [.axisFault b cause (s.axis b).owner] { s with
        axes := s.axes.modify b (fun ax => { ax with state := .faulted cause, arriving := false })
        stops := s.stops.set b none
        lanes := s.lanes.mapIdx (fun k ln =>
          if (s.axis b).owner = some k then { ln with inbox := ln.inbox ++ [.fault b] } else ln) } with hu
      obtain ⟨hit, h1, h2, h3, h4⟩ := ih u
      have hax : ∀ x, u.axis x =
          if b = x then { s.axis x with state := .faulted cause, arriving := false } else s.axis x := by
        intro x
        by_cases hx : b = x
        · subst hx; simp [u, emitAll, State.axis]
        · simp [u, emitAll, State.axis, hx, Table.get_modify_of_ne _ _ hx]
      have hown : ∀ x, (u.axis x).owner = (s.axis x).owner := by
        intro x; rw [hax]; split <;> simp_all
      have hbn : b ∉ hit := by
        intro hh; have := ((h3 b).1 hh).2; rw [hax] at this; simp at this
      refine ⟨b :: hit, h1.cons_cons b, List.nodup_cons.2 ⟨hbn, h2⟩, ?_, ?_⟩
      · intro x
        rw [List.mem_cons, h3 x, hax x]
        by_cases hx : b = x
        · subst hx; simp [hb]
        · simp [hx, Ne.symm hx]
      · rw [h4]
        simp only [hown]
        have e1 : u.axes.mapIdx (fun x ax =>
              if x ∈ hit then { ax with state := .faulted cause, arriving := false } else ax) =
            s.axes.mapIdx (fun x ax =>
              if x ∈ b :: hit then { ax with state := .faulted cause, arriving := false } else ax) := by
          refine Table.ext_get (fun j => ?_)
          have := hax j
          simp only [State.axis] at this
          simp only [Table.get_mapIdx, this]
          by_cases hj : b = j
          · subst hj; simp [hbn]
          · simp [hj, Ne.symm hj]
        have e2 : u.stops.mapIdx (fun x r => if x ∈ hit then none else r) =
            s.stops.mapIdx (fun x r => if x ∈ b :: hit then none else r) := by
          refine Table.ext_get (fun j => ?_)
          by_cases hj : b = j
          · subst hj; simp [u, emitAll, hbn]
          · simp [u, emitAll, Ne.symm hj, Table.get_set_of_ne _ _ hj]
        have e3 : u.lanes.mapIdx (fun k ln => { ln with
              inbox := ln.inbox ++
                (hit.filter (fun x => decide ((s.axis x).owner = some k))).map LaneMessage.fault }) =
            s.lanes.mapIdx (fun k ln => { ln with
              inbox := ln.inbox ++
                ((b :: hit).filter (fun x => decide ((s.axis x).owner = some k))).map LaneMessage.fault }) := by
          refine Table.ext_get (fun j => ?_)
          by_cases hj : (s.axis b).owner = some j <;> simp [u, emitAll, hj]
        simp only [e1, e2, e3]
        simp [u, emitAll, State.updMessages]
    · rw [List.foldl_cons, applyFault_unfit s b cause hb]
      obtain ⟨hit, h1, h2, h3, h4⟩ := ih s
      refine ⟨hit, h1.cons b, h2, ?_, h4⟩
      intro x
      rw [h3 x, List.mem_cons (a := x)]
      constructor
      · rintro ⟨h, h'⟩; exact ⟨Or.inr h, h'⟩
      · rintro ⟨h, h'⟩
        rcases h with h | h
        · subst h; exact absurd h' hb
        · exact ⟨h, h'⟩

/-! ### Writes of a setpoint (R11, R12, R147 to R149) -/

/-- A trip reaches the owners' inboxes and the posted events alone. -/
theorem sendTrip_shape (w : AxisId) (n : PairId) :
    ∃ lanes messages, sendTrip w n s = { s with lanes := lanes, messages := messages } := by
  have fold : ∀ (ls : List LaneId) (m : LaneMessage) (t : State),
      ∃ lanes, ls.foldl (fun u k => u.deliver k m) t = { t with lanes := lanes } := by
    intro ls m
    induction ls with
    | nil => exact fun t => ⟨t.lanes, rfl⟩
    | cons k rest ih =>
      intro t
      obtain ⟨lanes, h⟩ := ih (t.deliver k m)
      exact ⟨lanes, h⟩
  unfold sendTrip
  split
  · exact ⟨_, _, rfl⟩
  · rename_i pr _
    obtain ⟨lanes, h⟩ := fold (pairOwners s pr) (.trip n)
      (if (pairConcerned s pr).any (fun l => decide ((s.lane l).state = .running)) then
        s.emit (.interlock n pr.upper pr.lower ((pairGap s pr).getD 0) pr.gap w (pairConcerned s pr)) else s)
    dsimp only
    rw [h]
    split
    · exact ⟨lanes, (s.emit _).messages, rfl⟩
    · exact ⟨lanes, s.messages, rfl⟩

theorem noteWrite_quiet : noteWrite false a s = regap a s := by
  simp [noteWrite]

/-- A write's gap check changes the last gaps, the inboxes and the posted events alone. -/
theorem noteWrite_shape (byMotion : Bool) :
    ∃ lanes pairs messages,
      noteWrite byMotion a s = { s with lanes := lanes, pairs := pairs, messages := messages } := by
  have fold : ∀ (ns : List PairId) (t : State),
      ∃ lanes messages,
        ns.foldl (fun u n => sendTrip a n u) t = { t with lanes := lanes, messages := messages } := by
    intro ns
    induction ns with
    | nil => exact fun t => ⟨_, _, rfl⟩
    | cons n rest ih =>
      intro t
      obtain ⟨lanes, messages, h⟩ := sendTrip_shape t a n
      obtain ⟨lanes2, messages2, h2⟩ := ih (sendTrip a n t)
      exact ⟨lanes2, messages2, by rw [List.foldl_cons, h2, h]⟩
  unfold noteWrite
  dsimp only
  generalize (if byMotion = true then _ else ([] : List PairId)) = ns
  obtain ⟨lanes, messages, h⟩ := fold ns s
  rw [h]
  exact ⟨lanes, _, messages, rfl⟩

theorem noteWrite_axes (byMotion : Bool) : (noteWrite byMotion a s).axes = s.axes := by
  obtain ⟨_, _, _, h⟩ := noteWrite_shape s a byMotion
  rw [h]

theorem moveSetpoint_axis (v : Nat) :
    (moveSetpoint a v s).axis a = { s.axis a with previous := (s.axis a).setpoint, setpoint := some v } := by
  simp [moveSetpoint, State.axis, noteWrite_axes, State.updAxis]

theorem seed_axis {cfg : AxisConfig} (f : Nat) (h : (s.axis a).config = some cfg) :
    (seed a f s).axis a =
      { s.axis a with setpoint := some (seedValue cfg f), previous := some (seedValue cfg f) } := by
  have h' : (s.axes.get a).config = some cfg := h
  simp [seed, State.axis, h', noteWrite_axes, State.updAxis]

/-! ### A lane that stands down (R66 to R69) -/

theorem standDown_resume (h : (s.lane l).resume = true) :
    standDown l s = changeState l .held (s.updLane l (fun ln => { ln with holdLatch := false })) := by
  simp only [standDown, if_pos h]
  rfl

theorem standDown_fresh (h : (s.lane l).resume = false) :
    standDown l s = changeState l .ready { s with
      axes := disowned l s.axes
      lanes := s.lanes.modify l (fun ln => { ln with holdLatch := false, plan := none, claimSet := [] }) } := by
  simp [standDown, h, release, clearHold, disowned, State.updLane, Table.modify_modify]

end Sys2Proof.Machine
end

