-- ==== Sys2Proof/Laws/Planner.lean ====
section
/-! SUPPORT. What the Planner's operations do, each in the words of Safety.lean: the clamped target and the distance, the
void check, the gap check, the plan record, the snapshot, and the withdrawals taken together. -/

namespace Sys2Proof.Machine

/-! ### One member (R87 to R92) -/

theorem clamped_eq (m : MemberInput) : m.clamped = clampedTarget m.low m.high m.target := rfl

theorem distance_eq (m : MemberInput) : m.distance = travel m := by
  unfold MemberInput.distance travel
  cases m.setpoint with
  | none => rfl
  | some v =>
    show (if v ≤ m.clamped * 65536 then m.clamped * 65536 - v else v - m.clamped * 65536) =
      (((m.clamped * 65536 : Nat) : Int) - (v : Int)).natAbs
    split <;> omega

theorem minimumSpan_eq (r : Nat) (m : MemberInput) : m.minimumSpan r = leastSpan r m := by
  simp [MemberInput.minimumSpan, leastSpan, ceilDiv, velocityLimit, distance_eq, Config.unit]

theorem memberVoid_iff (s : State) (l : LaneId) (m : MemberInput) :
    memberVoid s l m = true ↔ FailsVoidCheck s l m := by
  have online : s.online m.axis = false ↔ ∀ e, s.station m.axis = some e → e.state ≠ .online := by
    unfold State.online
    cases s.station m.axis <;> simp
  have absent : m.setpoint.isNone = true ↔ m.setpoint = none := by simp
  simp [memberVoid, FailsVoidCheck, online, or_assoc]

/-! ### The plan record (R91 to R94, R97) -/

/-- Folding max over a list gives the largest of the list and its base. -/
theorem largest_foldl (xs : List Nat) (base : Nat) : Largest (xs.foldl max base) base xs := by
  induction xs generalizing base with
  | nil => simp [Largest]
  | cons x rest ih =>
    obtain ⟨h1, h2, h3⟩ := ih (max base x)
    refine ⟨by simp only [List.foldl_cons]; omega, ?_, ?_⟩
    · intro y hy
      rcases List.mem_cons.1 hy with rfl | hy
      · simp only [List.foldl_cons]; omega
      · exact h2 y hy
    · rcases h3 with h | h
      · rcases Nat.le_total base x with hb | hb
        · exact .inr (List.mem_cons.2 (.inl (by simp only [List.foldl_cons]; omega)))
        · exact .inl (by simp only [List.foldl_cons]; omega)
      · exact .inr (List.mem_cons.2 (.inr h))

theorem moves_eq (m : MemberInput) : m.moves = decide (travel m ≠ 0) := by
  simp [MemberInput.moves, distance_eq]

theorem moving_eq (j : PlanJob) :
    j.members.filter (·.moves) = j.members.filter (fun m => decide (travel m ≠ 0)) := by
  congr 1
  funext m
  exact moves_eq m

/-- The arithmetic makes of a snapshot the plan record that R88 to R94 describe. -/
theorem plan_made (j : PlanJob) : PlanMade j j.plan := by
  have none_moves : j.members.any (·.moves) = false ↔ ∀ m ∈ j.members, travel m = 0 := by
    simp [moves_eq]
  refine ⟨?_, ?_, ?_, rfl, by simp [PlanJob.plan], ?_⟩
  · simpa only [PlanJob.plan, PlanJob.ramp, moving_eq] using largest_foldl _ j.rs
  · intro h
    simp [PlanJob.plan, PlanJob.duration, none_moves.2 h]
  · intro ⟨m, hm, hd⟩
    have some_moves : j.members.any (·.moves) = true := by
      rw [List.any_eq_true]
      exact ⟨m, hm, by simp [moves_eq, hd]⟩
    simp only [PlanJob.plan, PlanJob.duration, some_moves, if_true, moving_eq, minimumSpan_eq]
    exact largest_foldl _ j.tn
  · intro i m v hi hv
    have h : j.plan.members[i]? = some (planMember j.ramp j.duration m) := by
      simp [PlanJob.plan, hi]
    rw [h]
    simp only [planMember, MemberInput.start, MemberInput.direction, hv, clamped_eq, distance_eq, moves_eq,
      PlanJob.plan, Option.getD_some, decide_eq_true_eq]
    rfl

/-! ### The gap check (R95) -/

theorem reference_iff (j : PlanJob) (a : AxisId) (outside : Option Nat) (h : Nat) :
    j.reference a outside = some h ↔ PlanHeight j a outside h := by
  unfold PlanJob.reference PlanHeight
  cases hf : j.members.find? (fun m => decide (m.axis = a)) with
  | none =>
    have hn : ∀ m ∈ j.members, m.axis ≠ a := by simpa using hf
    exact ⟨fun e => .inr ⟨hn, e⟩, fun e => e.elim (fun ⟨m, hm, _⟩ => by cases hm) (·.2)⟩
  | some m =>
    have hm : ¬ ∀ x ∈ j.members, x.axis ≠ a := fun hn =>
      hn m (List.mem_of_find?_eq_some hf) (by simpa using List.find?_some hf)
    constructor
    · intro e
      exact .inl ⟨m, rfl, (Option.some.inj e).symm⟩
    · rintro (⟨x, hx, e⟩ | ⟨hn, _⟩)
      · cases hx
        rw [e]
        rfl
      · exact absurd hn hm

theorem breaks_iff (j : PlanJob) (pr : PairInput) : j.breaks pr = true ↔ BreaksGap j pr := by
  unfold PlanJob.breaks BreaksGap
  simp only [← reference_iff]
  cases j.reference pr.upper pr.upperOutside <;> cases j.reference pr.lower pr.lowerOutside <;> simp

/-! ### The snapshot (R84, R95) -/

theorem reference_height (s : State) (a : AxisId) : HeightNow s a (reference (s.axis a)) := by
  constructor
  · intro v hv
    simp [reference, hv, Config.unit]
  · intro hn
    simp [reference, hn, Config.unit]

theorem outside_height (s : State) (a : AxisId) : OutsideHeight s a (outsideReference s a) := by
  constructor
  · intro k p m hs ho hp hf
    simp [outsideReference, hs, ho, plannedTarget, hp, hf]
  · intro h
    have : outsideReference s a = reference (s.axis a) := by
      unfold outsideReference
      dsimp only
      split
      · rename_i hs ho
        rcases h with h | h
        · exact absurd hs h
        · rw [h] at ho; cases ho
      · rfl
    rw [this]
    exact reference_height s a

theorem active_iff (s : State) (pr : ClashPair) :
    pairActive s pr = true ↔ (s.axis pr.upper).config ≠ none ∧ (s.axis pr.lower).config ≠ none := by
  simp [pairActive, State.present, Option.isSome_iff_ne_none]

/-- A pair enters the snapshot exactly when it is active and has a member in the move list. -/
theorem pairInput_iff (s : State) (members : List AxisId) (n : PairId) (x : PairInput) :
    pairInput s members n = some x ↔ ∃ pr, s.pairs.get n = some pr ∧
      ((s.axis pr.upper).config ≠ none ∧ (s.axis pr.lower).config ≠ none) ∧
      (pr.upper ∈ members ∨ pr.lower ∈ members) ∧
      x = ⟨n, pr.upper, pr.lower, pr.gap, outsideReference s pr.upper, outsideReference s pr.lower⟩ := by
  unfold pairInput
  cases s.pairs.get n with
  | none => simp
  | some pr =>
    constructor
    · intro h
      dsimp only at h
      split at h
      · rename_i hc
        rw [Bool.and_eq_true, active_iff, Bool.or_eq_true, decide_eq_true_eq, decide_eq_true_eq] at hc
        exact ⟨pr, rfl, hc.1, hc.2, (Option.some.inj h).symm⟩
      · cases h
    · rintro ⟨pr', hp, hc, hm, rfl⟩
      cases hp
      dsimp only
      rw [if_pos]
      rw [Bool.and_eq_true, active_iff, Bool.or_eq_true, decide_eq_true_eq, decide_eq_true_eq]
      exact ⟨hc, hm⟩

/-- A snapshot holds what R84 lists. -/
theorem snapshot_taken (s : State) (l : LaneId) : SnapshotTaken s l (snapshot s l) := by
  refine ⟨rfl, rfl, rfl, ?_⟩
  intro st hst
  have hs : snapshot s l = { lane := l, resume := (s.lane l).resume, withdrawn := false, rs := st.rs
                             tn := if (s.lane l).resume then 0 else st.tn
                             members := st.moves.map (memberInput s (s.lane l).resume)
                             pairs := pairInputs s (st.moves.map (·.axis)) } := by
    simp [snapshot, hst]
  rw [hs]
  refine ⟨rfl, rfl, by simp, ?_, ?_, ?_, ?_⟩
  · intro i m c hi hc
    simp [hi, memberInput, hc]
  · intro n
    constructor
    · intro hn
      obtain ⟨x, hx, rfl⟩ := List.mem_map.1 hn
      obtain ⟨k, -, hk⟩ := List.mem_filterMap.1 hx
      obtain ⟨pr, hp, hc, hm, rfl⟩ := (pairInput_iff s _ k x).1 hk
      refine ⟨pr, hp, hc.1, hc.2, ?_⟩
      rcases hm with hm | hm
      · obtain ⟨m, hm, he⟩ := List.mem_map.1 hm
        exact ⟨m, hm, .inl he⟩
      · obtain ⟨m, hm, he⟩ := List.mem_map.1 hm
        exact ⟨m, hm, .inr he⟩
    · rintro ⟨pr, hp, h1, h2, m, hm, he⟩
      refine List.mem_map.2 ⟨_, List.mem_filterMap.2 ⟨n, List.mem_finRange n,
        (pairInput_iff s _ n _).2 ⟨pr, hp, ⟨h1, h2⟩, ?_, rfl⟩⟩, rfl⟩
      rcases he with he | he
      · exact .inl (List.mem_map.2 ⟨m, hm, he⟩)
      · exact .inr (List.mem_map.2 ⟨m, hm, he⟩)
  · refine List.Pairwise.map _ (fun _ _ h => h) (List.Pairwise.filterMap _ ?_ (List.pairwise_lt_finRange 32))
    intro a b hab x hx y hy
    obtain ⟨_, _, _, _, rfl⟩ := (pairInput_iff s _ a x).1 hx
    obtain ⟨_, _, _, _, rfl⟩ := (pairInput_iff s _ b y).1 hy
    exact hab
  · intro x hx
    obtain ⟨k, -, hk⟩ := List.mem_filterMap.1 hx
    obtain ⟨pr, hp, _, _, rfl⟩ := (pairInput_iff s _ k x).1 hk
    exact ⟨pr, hp, rfl, rfl, rfl, outside_height s pr.upper, outside_height s pr.lower⟩

/-! ### Withdrawals taken together (R82, R86) -/

/-- With no lane in PLANNING, every queued lane and the lane of a plan still to be delivered has a withdrawal outstanding, so
that taking them all empties the queue and marks the plan. -/
theorem takeWithdrawals_clears {s : State} (h : PlannerSound s) (hn : ∀ l : LaneId, (s.lane l).state ≠ .planning) :
    (takeWithdrawals s.planner).queue = [] ∧
      ∀ j, (takeWithdrawals s.planner).inProgress = some j → j.withdrawn = true := by
  obtain ⟨-, hq, -, hp⟩ := h
  constructor
  · simp only [takeWithdrawals, List.filter_eq_nil_iff, decide_eq_true_eq, not_not]
    exact fun l hl => (hq l hl).resolve_left (hn l)
  · intro j hj
    simp only [takeWithdrawals, Option.map_eq_some_iff] at hj
    obtain ⟨k, hk, rfl⟩ := hj
    cases hw : k.withdrawn
    · simpa using (hp k hk hw).1.resolve_left (hn k.lane)
    · simp

end Sys2Proof.Machine
end

