-- ==== Sys2Proof/Laws/Lanes.lean ====
section
/-! SUPPORT. What a write of a setpoint does to the last gaps, what starting the members of an accepted plan does, what the
end test of a STOPPING lane does, and what a controlled halt does to a lane outside RUNNING. -/

namespace Sys2Proof.Machine

variable (s : State) (l : LaneId) (a : AxisId)

/-! ### Last gaps (R147) -/

theorem pairGap_now (pr : ClashPair) : GapNow s pr (pairGap s pr) := by
  refine ⟨reference (s.axis pr.upper), reference (s.axis pr.lower), reference_height s _, reference_height s _, ?_, ?_⟩
  · intro x y hx hy
    simp [pairGap, hx, hy]
  · intro h
    rcases h with h | h
    · simp [pairGap, h]
    · unfold pairGap
      rw [h]
      cases reference (s.axis pr.upper) <;> rfl

theorem watches_iff (pr : ClashPair) :
    pairWatches s a pr = true ↔ (pr.upper = a ∨ pr.lower = a) ∧ (s.axis pr.upper).config ≠ none ∧
      (s.axis pr.lower).config ≠ none := by
  rw [pairWatches, Bool.and_eq_true, active_iff]
  simp

/-- A write's gap check makes each active pair of the axis follow, and leaves the other pairs. -/
theorem noteWrite_gaps (byMotion : Bool) : GapsFollow a s (noteWrite byMotion a s) := by
  have key : ∀ u : State, u.pairs = s.pairs → GapsFollow a s (regap a u) := by
    intro u hu n
    constructor
    · intro h
      simp [regap, hu, h]
    · intro pr hp
      have hget : (regap a u).pairs.get n =
          some (if pairWatches u a pr then { pr with lastGap := pairGap u pr } else pr) := by
        simp [regap, hu, hp]
      constructor
      · intro hm hc hd
        have hw : pairWatches u a pr = true := (watches_iff u a pr).2 ⟨hm, hc, hd⟩
        refine ⟨pairGap u pr, pairGap_now u pr, ?_⟩
        rw [hget, if_pos hw]
      · intro hn
        have hw : ¬ pairWatches u a pr = true := by
          rw [watches_iff]
          rintro ⟨hm, hc, hd⟩
          rcases hn with ⟨h1, h2⟩ | h | h
          · exact hm.elim h1 h2
          · exact hc h
          · exact hd h
        rw [hget, if_neg hw]
  have fold : ∀ (ns : List PairId) (t : State), (ns.foldl (fun u n => sendTrip a n u) t).pairs = t.pairs := by
    intro ns
    induction ns with
    | nil => exact fun t => rfl
    | cons n rest ih =>
      intro t
      obtain ⟨lanes, messages, h⟩ := sendTrip_shape t a n
      rw [List.foldl_cons, ih, h]
  exact key _ (fold _ s)

theorem moveSetpoint_gaps (v : Nat) : GapsFollow a s (moveSetpoint a v s) :=
  noteWrite_gaps (s.updAxis a (fun ax => { ax with previous := ax.setpoint, setpoint := some v })) a true

theorem seed_gaps {cfg : AxisConfig} (f : Nat) (h : (s.axis a).config = some cfg) : GapsFollow a s (seed a f s) := by
  unfold seed
  rw [h]
  exact noteWrite_gaps (s.updAxis a (fun ax =>
    { ax with setpoint := some (seedValue cfg f), previous := some (seedValue cfg f) })) a false

theorem dropSetpoint_gaps : GapsFollow a s (dropSetpoint a s) :=
  noteWrite_gaps (s.updAxis a (fun ax => { ax with setpoint := none, previous := none })) a false

/-! ### A plan accepted (R7, R65, R102) -/

/-- What the start of a list of members does: each one at REST is MOVING from its setpoint, with no frame, and no reply to
a frame, that counts as built since. -/
theorem startMember_all (xs : List AxisId) :
    xs.foldl startMember s = { s with
      axes := s.axes.mapIdx (fun b ax => if b ∈ xs ∧ ax.state = .rest then
        { ax with state := .moving, previous := ax.setpoint, arriving := false } else ax)
      stations := s.stations.mapIdx (fun b eo => if b ∈ xs ∧ (s.axis b).state = .rest then
        eo.map (fun e => { e with frame := e.frame.map (fun f => { f with sinceMoving := false }) }) else eo)
      messages := { s.messages with markNotices := s.messages.markNotices.map (fun n =>
        if n.axis ∈ xs ∧ (s.axis n.axis).state = .rest then { n with sinceMoving := false } else n) } } := by
  induction xs generalizing s with
  | nil =>
    have h1 : s.axes.mapIdx (fun _ ax => ax) = s.axes := Table.ext_get (fun j => by simp)
    have h2 : s.stations.mapIdx (fun _ eo => eo) = s.stations := Table.ext_get (fun j => by simp)
    simp [h1, h2]
  | cons b rest ih =>
    rw [List.foldl_cons, ih]
    by_cases hb : (s.axis b).state = .rest
    · have hb' : (s.axes.get b).state = .rest := hb
      simp only [startMember, hb, if_true]
      congr 1
      · refine Table.ext_get (fun j => ?_)
        by_cases hj : b = j
        · subst hj; simp [hb']
        · simp [Table.get_modify_of_ne _ _ hj, Ne.symm hj]
      · refine Table.ext_get (fun j => ?_)
        by_cases hj : b = j
        · subst hj; simp [hb', State.axis, State.station]
        · simp [State.axis, Table.get_modify_of_ne _ _ hj, Table.get_set_of_ne _ _ hj, Ne.symm hj]
      · simp only [State.updMessages_messages, State.setStation_messages, State.updAxis_messages, List.map_map]
        congr 1
        refine List.map_congr_left (fun n _ => ?_)
        by_cases hj : b = n.axis
        · subst hj; simp [hb', State.axis]
        · simp [State.axis, Table.get_modify_of_ne _ _ hj, Ne.symm hj]
    · have hb' : ¬ (s.axes.get b).state = .rest := hb
      simp only [startMember, hb, if_false]
      congr 1
      · refine Table.ext_get (fun j => ?_)
        by_cases hj : j = b
        · subst hj; simp [hb']
        · simp [hj]
      · refine Table.ext_get (fun j => ?_)
        by_cases hj : j = b
        · subst hj; simp [hb', State.axis]
        · simp [hj]
      · congr 1
        refine List.map_congr_left (fun n _ => ?_)
        by_cases hj : n.axis = b
        · simp [hj, hb]
        · simp [hj]

/-- One TARGET_CLIPPED for each CLIPPED member, in the order given. -/
theorem postClipped_all (ms : List PlanMember) :
    ms.foldl (postClipped l) s = emitAll ((ms.filter (fun m => m.clipped)).map
      (fun m => .targetClipped m.axis l (askedTarget s l m.axis) m.target)) s := by
  induction ms generalizing s with
  | nil => simp
  | cons m rest ih =>
    rw [List.foldl_cons, ih]
    cases hm : m.clipped
    · simp [postClipped, hm]
    · have : ∀ b, askedTarget (postClipped l s m) l b = askedTarget s l b := by
        intro b; simp [postClipped, hm]; rfl
      simp only [this]
      simp [postClipped, hm, emitAll, State.emit, State.updMessages]

/-! ### The end test (R71, R120) -/

theorem membersAtRest_iff :
    membersAtRest s l = true ↔ ∀ b ∈ (s.lane l).claimSet, (s.axis b).state ≠ .moving ∧ (s.axis b).state ≠ .stopping := by
  unfold membersAtRest
  rw [List.all_eq_true]
  refine forall₂_congr (fun b _ => ?_)
  cases (s.axis b).state <;> simp [AxisState.travelling]

theorem endTest_does (h : (s.lane l).state = .stopping) : EndTest l s (endTest l s) := by
  constructor
  · intro c hc hr
    have hm := (membersAtRest_iff s l).2 hr
    have hs : (s.lanes.get l).state = .stopping := h
    have hne : ((dropContext l (s.updLane l (fun ln => { ln with holdLatch := false }))).lane l).state ≠ .held := by
      simp [dropContext, State.lane, State.updLane, State.setContext, hs]
    simp only [endTest, h, hm, and_self, if_true]
    rw [changeState_eq _ _ hne]
    simp [dropContext, State.lane, State.updLane, State.setContext, State.context, Table.modify_modify, hs,
      show s.contexts.get l = some c from hc, emitAll, State.updMessages]
  · rintro ⟨b, hb, hs⟩
    have hm : ¬ membersAtRest s l = true := by
      rw [membersAtRest_iff]
      intro hr
      rcases hs with hs | hs
      · exact (hr b hb).1 hs
      · exact (hr b hb).2 hs
    simp [endTest, hm]

/-! ### A controlled halt outside RUNNING (Table 7-2) -/

theorem planningHalt_does (cause : HaltCause) (h : (s.lane l).state = .planning) :
    ((s.lane l).resume = false →
      planningHalt l cause s = emitAll [.laneState l .planning .ready cause] { s with
        axes := disowned l s.axes
        planner := { s.planner with withdrawals := s.planner.withdrawals ++ [l] }
        lanes := s.lanes.modify l (fun ln => { ln with
          state := .ready, haltCause := cause, planResult := none, holdLatch := false, plan := none
          claimSet := [] }) }) ∧
    ((s.lane l).resume = true →
      planningHalt l cause s = emitAll [.laneState l .planning .held cause] { s with
        planner := { s.planner with withdrawals := s.planner.withdrawals ++ [l] }
        lanes := s.lanes.modify l (fun ln => { ln with
          state := .held, haltCause := cause, planResult := none, holdLatch := false }) }) := by
  have hs : (s.lanes.get l).state = .planning := h
  constructor <;> intro hr
  · rw [planningHalt, standDown_fresh]
    · simp [changeState, askWithdrawal, recordHalt, State.lane, State.updLane, hs, Table.modify_modify, emit_eq_emitAll,
        emitAll, State.updMessages]
    · simpa [askWithdrawal, recordHalt, State.lane, State.updLane] using hr
  · rw [planningHalt, standDown_resume]
    · simp [changeState, askWithdrawal, recordHalt, State.lane, State.updLane, hs, Table.modify_modify, emit_eq_emitAll,
        emitAll, State.updMessages]
    · simpa [askWithdrawal, recordHalt, State.lane, State.updLane] using hr

theorem releaseHalt_does (cause : HaltCause) (c : MotionContext) (h : (s.lane l).state = .releasing)
    (hc : s.context l = some c) :
    ((s.lane l).resume = false →
      releaseHalt l cause s = emitAll [.laneState l .releasing .ready cause] { s with
        axes := disowned l (restMembers l s).axes
        contexts := s.contexts.set l none
        lanes := s.lanes.modify l (fun ln => { ln with
          state := .ready, haltCause := cause, holdLatch := false, plan := none, claimSet := [] }) }) ∧
    ((s.lane l).resume = true →
      releaseHalt l cause s = emitAll [.laneState l .releasing .held cause] { s with
        axes := (restMembers l s).axes
        contexts := s.contexts.set l none
        lanes := s.lanes.modify l (fun ln => { ln with
          state := .held, haltCause := cause, holdLatch := false
          plan := ln.plan.map (fun p => { p with frozen := c.profileTime }) }) }) := by
  have hs : (s.lanes.get l).state = .releasing := h
  have hc' : s.contexts.get l = some c := hc
  constructor <;> intro hr
  · rw [releaseHalt, standDown_fresh]
    · simp [changeState, restMembers, dropContext, recordHalt, State.lane, State.updLane, State.setContext, State.context,
        hs, hc', Table.modify_modify, emit_eq_emitAll, emitAll, State.updMessages]
      congr 1
    · simpa [restMembers, dropContext, recordHalt, State.lane, State.updLane, State.setContext] using hr
  · rw [releaseHalt, standDown_resume]
    · simp [changeState, restMembers, dropContext, recordHalt, State.lane, State.updLane, State.setContext, State.context,
        hs, hc', Table.modify_modify, emit_eq_emitAll, emitAll, State.updMessages]
      exact Table.ext_get (fun i => by simp only [Table.get_mapIdx]; congr 1)
    · simpa [restMembers, dropContext, recordHalt, State.lane, State.updLane, State.setContext] using hr

/-- What a HALT request or an ENABLE loss does to a lane that is not RUNNING. -/
theorem haltLane_elsewhere (cause : HaltCause) (h : (s.lane l).state ≠ .running) :
    ∃ u es, haltLane l cause s = emitAll es u ∧ HaltedElsewhere l cause s u es := by
  unfold HaltedElsewhere
  cases hs : (s.lane l).state
  case running => exact absurd hs h
  case idle => exact ⟨s, [], by simp [haltLane, hs], by simp⟩
  case ready => exact ⟨s, [], by simp [haltLane, hs], by simp⟩
  case stopping => exact ⟨s, [], by simp [haltLane, hs], by simp⟩
  case held => exact ⟨s, [], by simp [haltLane, hs], by simp⟩
  case follow =>
    have hs' : (s.lanes.get l).state = .follow := hs
    refine ⟨s.updLane l (fun ln =>
      { ln with state := .ready, haltCause := cause, followDue := false, decrements := 0 }), _, ?_, by simp; rfl⟩
    simp [haltLane, endFollow, changeState, recordHalt, State.lane, State.updLane, hs', Table.modify_modify,
      emit_eq_emitAll, emitAll, State.updMessages]
  case planning =>
    obtain ⟨h1, h2⟩ := planningHalt_does s l cause hs
    cases hr : (s.lane l).resume
    · exact ⟨_, _, by rw [haltLane, hs]; exact h1 hr, by simp⟩
    · exact ⟨_, _, by rw [haltLane, hs]; exact h2 hr, by simp⟩
  case releasing =>
    cases hc : s.context l with
    | none => exact ⟨_, [], by rw [emitAll_nil], by simp⟩
    | some c =>
      obtain ⟨h1, h2⟩ := releaseHalt_does s l cause c hs hc
      cases hr : (s.lane l).resume
      · exact ⟨_, _, by rw [haltLane, hs]; exact h1 hr, by simp [restMembers]⟩
      · exact ⟨_, _, by rw [haltLane, hs]; exact h2 hr, by simp [restMembers]⟩

end Sys2Proof.Machine
end

