-- ==== Sys2Proof/Laws/Memory.lean ====
section
/-! SUPPORT. The serial memory: its canonical form, kept by every operation, and what reads after a write. -/

namespace Sys2Proof.Machine

/-- The canonical form cell by cell: addresses strictly rising, each inside the image, no byte the erased one. -/
theorem Memory.wf_iff (m : Memory) :
    Memory.wf m = true ↔
      m.Pairwise (fun c d => c.1 < d.1) ∧ ∀ c ∈ m, c.1 < Config.imageSize ∧ c.2 ≠ erased := by
  induction m with
  | nil => simp [Memory.wf]
  | cons c rest ih =>
    cases rest with
    | nil => simp [Memory.wf]
    | cons d rest =>
      simp only [Memory.wf, Bool.and_eq_true, decide_eq_true_eq, ih]
      constructor
      · rintro ⟨⟨hcd, hc⟩, hp, hall⟩
        have hd := List.pairwise_cons.1 hp
        refine ⟨List.pairwise_cons.2 ⟨?_, hp⟩, ?_⟩
        · intro x hx
          rcases List.mem_cons.1 hx with rfl | hx
          · exact hcd
          · exact Nat.lt_trans hcd (hd.1 x hx)
        · intro x hx
          rcases List.mem_cons.1 hx with rfl | hx
          · exact ⟨Nat.lt_trans hcd (hall d (by simp)).1, hc⟩
          · exact hall x hx
      · rintro ⟨hp, hall⟩
        have hc := List.pairwise_cons.1 hp
        exact ⟨⟨hc.1 d (by simp), (hall c (by simp)).2⟩, hc.2, fun x hx => hall x (List.mem_cons_of_mem _ hx)⟩

theorem Memory.wf_nil : Memory.wf [] = true := rfl

theorem Memory.wf_tail {c : Host.Cell} {rest : Memory} (h : Memory.wf (c :: rest) = true) :
    Memory.wf rest = true := by
  rw [Memory.wf_iff] at h ⊢
  exact ⟨(List.pairwise_cons.1 h.1).2, fun x hx => h.2 x (List.mem_cons_of_mem _ hx)⟩

/-- Below the first listed address a canonical memory reads as erased. -/
theorem Memory.read_of_lt {m : Memory} {x : Nat} (h : ∀ c ∈ m, x < c.1) : Memory.read m x = erased := by
  induction m with
  | nil => rfl
  | cons c rest ih =>
    have hc : c.1 ≠ x := Nat.ne_of_gt (h c (by simp))
    simp only [Memory.read, hc, if_false]
    exact ih (fun d hd => h d (List.mem_cons_of_mem _ hd))

/-- Cells after a byte is placed come from the memory or are the byte placed. -/
theorem Memory.mem_place {m : Memory} {a : Nat} {b : Byte} {x : Host.Cell} (hx : x ∈ Memory.place m a b) :
    (x = (a, b) ∧ b ≠ erased) ∨ x ∈ m := by
  induction m with
  | nil =>
    by_cases hb : b = erased
    · simp [Memory.place, hb] at hx
    · left; simp [Memory.place, hb] at hx; exact ⟨hx, hb⟩
  | cons c rest ih =>
    unfold Memory.place at hx
    split at hx
    · split at hx
      · exact .inr hx
      · rename_i hb
        rcases List.mem_cons.1 hx with h | h
        · exact .inl ⟨h, hb⟩
        · exact .inr h
    · split at hx
      · split at hx
        · exact .inr (List.mem_cons_of_mem _ hx)
        · rename_i hb
          rcases List.mem_cons.1 hx with h | h
          · exact .inl ⟨h, hb⟩
          · exact .inr (List.mem_cons_of_mem _ h)
      · rcases List.mem_cons.1 hx with h | h
        · exact .inr (h ▸ List.mem_cons_self)
        · rcases ih h with h | h
          · exact .inl h
          · exact .inr (List.mem_cons_of_mem _ h)

theorem Memory.wf_place {m : Memory} {a : Nat} (b : Byte) (h : Memory.wf m = true) (ha : a < Config.imageSize) :
    Memory.wf (Memory.place m a b) = true := by
  rw [Memory.wf_iff] at h ⊢
  refine ⟨?_, ?_⟩
  · obtain ⟨hp, -⟩ := h
    induction m with
    | nil => unfold Memory.place; split <;> simp
    | cons c rest ih =>
      have hc := List.pairwise_cons.1 hp
      unfold Memory.place
      split
      · rename_i hlt
        split
        · exact hp
        · refine List.pairwise_cons.2 ⟨?_, hp⟩
          intro x hx
          rcases List.mem_cons.1 hx with rfl | hx
          · exact hlt
          · exact Nat.lt_trans hlt (hc.1 x hx)
      · rename_i hlt
        split
        · rename_i heq
          split
          · exact hc.2
          · exact List.pairwise_cons.2 ⟨fun x hx => by rw [heq]; exact hc.1 x hx, hc.2⟩
        · rename_i hne
          refine List.pairwise_cons.2 ⟨?_, ih hc.2⟩
          intro x hx
          rcases Memory.mem_place hx with ⟨rfl, -⟩ | hx
          · show c.1 < a; omega
          · exact hc.1 x hx
  · intro x hx
    rcases Memory.mem_place hx with ⟨rfl, hb⟩ | hx
    · exact ⟨ha, hb⟩
    · exact h.2 x hx

theorem Memory.wf_write {m : Memory} (a : Nat) (b : Byte) (h : Memory.wf m = true) :
    Memory.wf (Memory.write m a b) = true := by
  unfold Memory.write
  split
  · exact Memory.wf_place b h (by assumption)
  · exact h

/-- Every list of byte writes keeps the canonical form. -/
theorem Memory.wf_writeAll (cells : List (Nat × Byte)) {m : Memory} (h : Memory.wf m = true) :
    Memory.wf (Memory.writeAll m cells) = true := by
  induction cells generalizing m with
  | nil => exact h
  | cons c rest ih => exact ih (Memory.wf_write c.1 c.2 h)

/-- What a canonical memory reads after a byte is placed. -/
theorem Memory.read_place {m : Memory} (a : Nat) (b : Byte) (x : Nat) (h : Memory.wf m = true) :
    Memory.read (Memory.place m a b) x = if x = a then b else Memory.read m x := by
  rw [Memory.wf_iff] at h
  obtain ⟨hp, -⟩ := h
  induction m with
  | nil =>
    unfold Memory.place
    by_cases hb : b = erased
    · by_cases hx : x = a <;> simp [hb, hx, Memory.read]
    · by_cases hx : x = a
      · simp [hb, hx, Memory.read]
      · simp [hb, hx, Memory.read, Ne.symm hx]
  | cons c rest ih =>
    have hc := List.pairwise_cons.1 hp
    unfold Memory.place
    split
    · rename_i hlt
      split
      · rename_i hb
        by_cases hx : x = a
        · subst hx
          rw [if_pos rfl, hb]
          refine Memory.read_of_lt ?_
          intro d hd
          rcases List.mem_cons.1 hd with rfl | hd
          · exact hlt
          · exact Nat.lt_trans hlt (hc.1 d hd)
        · rw [if_neg hx]
      · by_cases hx : x = a
        · simp [Memory.read, hx]
        · rw [if_neg hx]; simp [Memory.read, Ne.symm hx]
    · rename_i hlt
      split
      · rename_i heq
        split
        · rename_i hb
          by_cases hx : x = a
          · rw [if_pos hx, hb, hx, heq]
            exact Memory.read_of_lt hc.1
          · rw [if_neg hx]
            have : c.1 ≠ x := fun e => hx (by rw [heq, e])
            simp [Memory.read, this]
        · by_cases hx : x = a
          · simp [Memory.read, hx]
          · rw [if_neg hx]
            have : c.1 ≠ x := fun e => hx (by rw [heq, e])
            simp [Memory.read, this, Ne.symm hx]
      · rename_i hne
        by_cases hcx : c.1 = x
        · have : x ≠ a := fun e => hne (by rw [← e, hcx])
          simp [Memory.read, hcx, this]
        · simp only [Memory.read, hcx, if_false]
          exact ih hc.2

/-- What a canonical memory reads after one byte write. -/
theorem Memory.read_write {m : Memory} (a : Nat) (b : Byte) (x : Nat) (h : Memory.wf m = true) :
    Memory.read (Memory.write m a b) x = if x = a ∧ a < Config.imageSize then b else Memory.read m x := by
  unfold Memory.write
  split
  · rename_i ha; rw [Memory.read_place a b x h]; simp [ha]
  · rename_i ha; simp [ha]

theorem State.reset_memory_wf : Memory.wf State.reset.memory = true := rfl

end Sys2Proof.Machine
end

