-- ==== Sys2Proof/Tests/Slice0.lean ====
section
/-! SUPPORT. Tests: the manual's worked numbers, one ill-formed term for each check of WellFormed, and for every statement
of Certificates/Slice0 a state and operands that meet its hypotheses, at the ends of their ranges. -/

namespace Sys2Proof.Tests

set_option Elab.async false

open Sys2Proof.Machine

/-! ### A small rig -/

/-- The state a step leaves; the state itself where it leaves none. -/
def run (i : Instr) (s : State) : State :=
  match exec i s with
  | .next t => t
  | _ => s

/-- A part that has loaded, latch clear, every ENABLE active. -/
def ready : State :=
  { State.reset with
    latch := false
    loader := ⟨.loaded, none⟩
    lines := State.reset.lines.mapIdx (fun i ls => if i.val < 4 then ⟨true, true, false⟩ else ls) }

def config (station vmax rampFloor : Nat) : AxisConfig := ⟨station, 0, 12000, vmax, rampFloor, 50, 10, 400⟩

/-- An axis at rest at a height in millimetres, unlocked, its station ONLINE. -/
def equip (a : AxisId) (c : AxisConfig) (mm : Nat) (s : State) : State :=
  { s with
    axes := s.axes.set a { Axis.reset with
      config := some c, state := .rest, lock := false, setpoint := some (mm * 65536), previous := some (mm * 65536)
      feedback := some (mm * 65536), load := some 100 }
    stations := s.stations.set a (some { StationEntry.new c.station with
      state := .online, sequence := 4, frame := some ⟨mm * 65536, .hold, 4, true⟩
      lastReply := some ⟨false, true, false, mm * 65536, 100⟩ }) }

/-- Step 12 of 5.7. -/
def step12 : Step :=
  ⟨0, 100, 0, .manual, none, [⟨7, 8000, none, none⟩, ⟨8, 7500, none, none⟩, ⟨9, 3500, some 50, some 200⟩]⟩

/-- The rig of 5.7: lane 4 READY at step 12 under CP2, pairs 4 and 6, axis 31 at rest. -/
def rig : State :=
  let s := equip 31 (config 31 1000 50) 9500 (equip 9 (config 9 900 120) 500 (equip 8 (config 8 600 80) 9000
    (equip 7 (config 7 1200 150) 2000 ready)))
  { s with
    pairs := (s.pairs.set 4 (some ⟨8, 9, 600, some 8500⟩)).set 6 (some ⟨31, 7, 800, some 7500⟩)
    cues := { s.cues with slots := s.cues.slots.set 12 (some step12) }
    lanes := s.lanes.set 4 { Lane.reset with
      state := .ready, controller := some 2, base := some (.numbered 12), current := some (.numbered 12) } }

def withLane (l : LaneId) (f : Lane → Lane) (s : State) : State := s.updLane l f
def withAxis (a : AxisId) (f : Axis → Axis) (s : State) : State := s.updAxis a f

/-- Lane 4 as it goes on: PLANNING, its result delivered, RELEASING, every mark set, RUNNING, and one period on. -/
def planning : State := run (.go 2 1 4) rig
def planned : State := run .planCompletion planning
def releasing : State := run (.planResult 4) planned
def tracked : State :=
  releasing.setContext 4 ((releasing.context 4).map (fun c =>
    { c with members := c.members.map (fun m => { m with tracking := true }) }))
def running : State := run (.releaseEnd 4) tracked
def begun : State := run .periodStart running
def moved : State := run (.motionGeneratorWork 4) begun

def planned12 : PlanRecord :=
  { ramp := 150, duration := 1684, frozen := 0
    members :=
      [⟨7, 131072000, 8000, 393216000, .up, 0, 1684, 256333, false⟩,
        ⟨8, 589824000, 7500, 98304000, .down, 0, 1684, 64083, false⟩,
        ⟨9, 32768000, 3500, 196608000, .up, 200, 1484, 147382, false⟩] }

/-! ### The manual's worked numbers -/

/-- R192. -/
theorem test_crc_of_the_nine_digits :
    crc16 [0x31, 0x32, 0x33, 0x34, 0x35, 0x36, 0x37, 0x38, 0x39] = 0x29B1#16 := by decide +kernel

/-- 5.7. -/
theorem test_go_plans_step_12 :
    (planning.lane 4).state = .planning ∧ (planning.lane 4).claimSet = [7, 8, 9] ∧
      (planned.lane 4).planResult = some (.ok planned12) := by decide +kernel

/-- 5.7: with Tn = 2000. -/
theorem test_a_longer_tn_slows_step_12 :
    (planning.planner.inProgress.map (fun j => ({ j with tn := 2000 } : PlanJob).plan.members.map (·.cruise))) =
      some [212549, 53137, 119156] := by decide +kernel

/-- 5.8: the resume from 5000, 7800 and 1200 mm. -/
theorem test_a_resume_plans_from_where_it_stands :
    (planning.planner.inProgress.map (fun j =>
      let k : PlanJob := { j with members := (j.members.zip [5000, 7800, 1200]).map (fun x =>
        { x.1 with delay := 0, setpoint := some (x.2 * 65536) }) }
      (k.duration, k.plan.members.map (·.cruise)))) = some (1173, [192187, 19218, 147343]) := by decide +kernel

/-- 6.8: axis 7 at period starts 400, 401, 464, 465, 1534, 1535 and 1684. -/
theorem test_distance_covered_by_axis_7 :
    [102400, 102654, 114624, 114752, 392704, 392960, 431104].map (covered 256333 393216000 150 1684) =
      [83308225, 83562555, 95548125, 95676292, 373989847, 374246504, 393216000] := by decide +kernel

/-- 6.9: axis 7's first, second, middle and last stop steps. -/
theorem test_stop_steps_of_axis_7 :
    [1, 2, 75, 149, 150].map (stopMovement 256333 150) = [254624, 252915, 128166, 1708, 0] := by decide +kernel

theorem test_release_starts_the_members :
    (releasing.lane 4).state = .releasing ∧ (releasing.axis 7).state = .moving ∧
      (releasing.axis 9).state = .moving ∧ (releasing.axis 31).state = .rest ∧
      frameMode releasing 7 = .follow ∧ frameMode releasing 31 = .hold := by decide +kernel

theorem test_the_first_period_moves_axis_7 :
    (running.lane 4).state = .running ∧ (moved.axis 7).setpoint = some (131072000 + 854) ∧
      (moved.axis 9).setpoint = some 32768000 ∧
      (moved.pairs.get 6).map (·.lastGap) = some (some 7500) := by decide +kernel

theorem test_a_halt_stops_the_departed_and_rests_the_delayed :
    ((run (.halt 2 9 4) moved).lane 4).state = .stopping ∧
      ((run (.halt 2 9 4) moved).axis 7).state = .stopping ∧
      ((run (.halt 2 9 4) moved).axis 9).state = .rest ∧
      ((run (.halt 2 9 4) moved).stop 7).map (·.velocity) = some 854 := by decide +kernel

/-- R117: a halt taken between a period start and the lane's work of it leaves the first stop step due at that period
start. -/
theorem test_a_halt_before_the_work_steps_at_once :
    let again := run .periodStart moved
    ((run (.halt 2 9 4) again).stop 7).map (·.due) = some true ∧ ((run (.halt 2 9 4) moved).stop 7).map (·.due) = some false := by
  decide +kernel

/-- R103: a mark that comes after the release timeout has been reported changes nothing. -/
theorem test_a_late_mark_changes_nothing :
    let late := (releasing.setContext 4 ((releasing.context 4).map (fun c => { c with expiry := some [7] }))).updMessages
      (fun m => { m with markNotices := [⟨7, true, .follow, true⟩] })
    (run (.trackingMark 7) late).context 4 = late.context 4 := by decide +kernel

theorem test_the_house_stop_holds_the_lane :
    let s := run (.emergency 4) (run (.eStop 0 3) moved)
    s.latch = true ∧ (s.lane 4).state = .held ∧ (s.lane 4).haltCause = .estop ∧ (s.axis 7).state = .rest ∧
      frameMode s 7 = .brake := by decide +kernel

/-- A POLL's bytes on CP1: SYNC, LEN 0, KIND 0x50, TAG 7, CRC. -/
theorem test_a_poll_frame_is_received_admitted_and_answered :
    let crc := crcBytes [0, 0x50, 7]
    let heard := ([0xC5, 0, 0x50, 7] ++ crc).foldl (fun s b => run (.byteReceived 1 b false) s) ready
    let dispatched := run (.consoleFrame 1) heard
    let answered := run (.poll 1 7) dispatched
    (dispatched.port 1).inProgress = some (.poll 1 7) ∧ (answered.port 1).inProgress = none ∧
      (answered.port 1).transmit.map (fun r => (r.kind, r.tag, r.code)) = [(0x50, 7, .ok)] ∧
      ((run (.replySent 1) answered).port 1).transmit = [] := by decide +kernel

theorem test_an_unknown_kind_and_a_wrong_length_are_answered :
    parseRequest 0 0x57 0 [] = .unknown ∧ parseRequest 0 0x10 0 [] = .badLength ∧
      parseRequest 0 0x12 5 [3, 1, 0xFF] = .request (.load 0 5 3 511) ∧
      parseRequest 0 0x30 5 [1, 0, 9, 9, 9, 9, 9, 9, 9, 9, 9, 9, 9, 9, 9, 9, 9] = .request (.putAxisRemove 0 5 1) := by
  decide +kernel

/-- A good reply of station 7, its echo the frame's sequence. -/
def replyBytes (flags echo : Byte) (feedback : Nat) : List Byte :=
  let covered := [0xA2#8, 7, flags, echo] ++ be32 feedback ++ be16 100
  [0x55#8, 0xD3#8] ++ covered ++ crcBytes covered

/-- The rig listening for the reply of axis 7. -/
def listening : State := { rig with link := ⟨some 8, some ⟨7, false⟩, []⟩ }

theorem test_a_good_reply_reaches_the_axis :
    ((run (.statusFrame 120 (replyBytes 2 4 131072999)) listening).axis 7).feedback = some 131072999 ∧
      (run (.statusFrame 120 (replyBytes 2 4 131072999)) listening).messages.replyChecks.length = 1 ∧
      ((run (.statusFrame 120 (replyBytes 2 5 0)) listening).station 7).map (·.stales) = some 1 ∧
      ((run .replyWindowExpiry listening).station 7).map (fun e => (e.noReplies, e.badRun)) = some (1, 1) := by
  decide +kernel

/-- R12: 12000 mm is 786,432,000 units, and a seed ends there. -/
theorem test_a_seed_is_clamped :
    seedValue (config 7 1200 150) 800000000 = 786432000 ∧ seedValue (config 7 1200 150) 5 = 5 := by decide +kernel

/-- A step of the first `n` axes, as PUT STEP carries it. -/
def bodyOf (n : Nat) : RawStep :=
  ⟨0, 10, 0, 0, 0, 0, 0xFFFF, (List.range n).map (fun a => ⟨BitVec.ofNat 8 a, 0, none, none⟩)⟩

/-- A store with 3 entries free: 127 steps of 16, one of 11, and one of 2 in slot 200. -/
def crowded : State :=
  { ready with cues := { ready.cues with slots := ready.cues.slots.mapIdx (fun i _ =>
      if i.val < 127 then checkStep (bodyOf 16) else if i.val = 127 then checkStep (bodyOf 11)
      else if i.val = 200 then checkStep (bodyOf 2) else none) } }

/-- R45: with 3 free and a step of 2 stored, 6 moves are refused and 5 leave 0 free. -/
theorem test_the_pool_counts_what_a_rewrite_gives_back :
    crowded.cues.free = 3 ∧
      ((run (.putStep 0 1 200 (bodyOf 6)) crowded).port 0).transmit.map (·.code) = [.poolFull] ∧
      ((run (.putStep 0 1 200 (bodyOf 5)) crowded).port 0).transmit.map (·.data) = [[0, 0, 0]] := by decide +kernel

theorem test_reset_then_blank_load :
    (run (.imageLoadCompletion []) State.reset).loader.state = .blank ∧
      (run (.imageLoadCompletion []) State.reset).ports.cells.map (fun pt => pt.attention) = [true, true, true] := by
  decide +kernel

/-- R188: a filter of 0 set right after the load still finds CONFIG_RESULT the first event of the queue. -/
theorem test_config_result_is_first_whatever_follows :
    ((run (.setFilter 0 1 0) (run (.imageLoadCompletion []) State.reset)).port 0).events.map (·.body) =
      [.configResult .blank] := by decide +kernel

/-! ### Words -/

/-- The table gives no row any bits, so no word is a command and the queue stays as it was. -/
theorem test_no_word_spells_a_command :
    decodeTableWord 8 0 = none ∧ decodeTableWord 0 0 = none ∧ ready.withFetchWord 8 5 = ready := by
  refine ⟨rfl, rfl, rfl⟩

/-! ### Terms that the check of WellFormed refuses, beside one it takes -/

theorem smoke_pin_reset : Instr.wellFormed (.pinReset 938) = false ∧ Instr.wellFormed (.pinReset 937) = true := by
  decide
theorem smoke_cells_outside_the_image :
    Instr.wellFormed (.imageLoadCompletion [(935, 0)]) = false ∧
      Instr.wellFormed (.imageLoadCompletion [(934, 0)]) = true := by decide
theorem smoke_cells_out_of_order :
    Instr.wellFormed (.saveCompletion [(3, 0), (3, 1)]) = false ∧
      Instr.wellFormed (.saveCompletion [(3, 0), (4, 1)]) = true := by decide
theorem smoke_reply_after_the_window :
    Instr.wellFormed (.statusFrame 501 [0]) = false ∧ Instr.wellFormed (.statusFrame 500 [0]) = true := by decide
theorem smoke_reply_without_a_byte : Instr.wellFormed (.statusFrame 500 []) = false := by decide
theorem smoke_reply_past_a_frame :
    Instr.wellFormed (.statusFrame 500 (List.replicate 15 0)) = false ∧
      Instr.wellFormed (.statusFrame 500 (List.replicate 14 0)) = true := by decide
theorem smoke_direct_past_a_body :
    Instr.wellFormed (.direct 0 0 0 0 0 (List.replicate 62 ⟨0, 0, none, none⟩)) = false ∧
      Instr.wellFormed (.direct 0 0 0 0 0 (List.replicate 61 ⟨0, 0, none, none⟩)) = true := by decide +kernel
theorem smoke_put_step_past_a_body :
    Instr.wellFormed (.putStep 0 0 0 ⟨0, 0, 0, 0, 0, 0, 0, List.replicate 59 ⟨0, 0, none, none⟩⟩) = false ∧
      Instr.wellFormed (.putStep 0 0 0 ⟨0, 0, 0, 0, 0, 0, 0, List.replicate 58 ⟨0, 0, none, none⟩⟩) = true := by
  decide +kernel
theorem smoke_put_axis_not_present :
    Instr.wellFormed (.putAxis 0 0 0 ⟨0, 1, 0, 1, 10, 10, 5, 0, 1⟩) = false ∧
      Instr.wellFormed (.putAxis 0 0 0 ⟨1, 1, 0, 1, 10, 10, 5, 0, 1⟩) = true := by decide

/-! ### A state and operands for each statement -/

/-- The small memory image used where only its length and marker matter. -/
def markedImage : List Byte := [0x4C, 0x43] ++ List.replicate 933 0xFF

def saving : State := { ready with loader := ⟨.loaded, some ⟨1, markedImage⟩⟩ }

theorem witness_step : State.reset.pending = [] := rfl

theorem witness_interrupted_save :
    Memory.wf State.reset.memory = true ∧ markedImage.length = Config.imageSize ∧
      markedImage.take 2 = [0x4C, 0x43] ∧ 0 < 1 ∧ 936 < Config.imageSize + 2 ∧ Config.imageSize + 2 ≤ 937 := by
  decide +kernel

theorem witness_load_tests :
    (List.replicate 935 (0xFF : Byte)).take 2 = [0xFF, 0xFF] ∧
      ([0, 0] : List Byte).take 2 ≠ [0xFF, 0xFF] ∧ ([0, 0] : List Byte).take 2 ≠ [0x4C, 0x43] ∧
      markedImage.take 2 = [0x4C, 0x43] ∧ (markedImage.drop 2).take 3 ≠ [1, 48, 32] ∧
      (let short : List Byte := [0x4C, 0x43, 1, 48, 32]
       short.take 2 = [0x4C, 0x43] ∧ (short.drop 2).take 3 = [1, 48, 32] ∧
        crcBytes (short.take 933) ≠ (short.drop 933).take 2) ∧
      (judgeImage markedImage).1.state ≠ .loaded := by decide +kernel

/-- Bytes listed one after the other from an address on. -/
def listed (n : Nat) : List Byte → Memory
  | [] => []
  | b :: rest => (n, b) :: listed (n + 1) rest

theorem read_listed (bytes : List Byte) : ∀ n i (h : i < bytes.length),
    Memory.read (listed n bytes) (n + i) = bytes[i] := by
  induction bytes with
  | nil => intro n i h; simp at h
  | cons b rest ih =>
    intro n i h
    cases i with
    | zero => simp [listed, Memory.read]
    | succ k =>
      have hk : k < rest.length := by simpa using h
      have := ih (n + 1) k hk
      simp only [listed, Memory.read]
      rw [if_neg (by omega), show n + (k + 1) = n + 1 + k by omega, this]
      simp

theorem image_listed {bytes : List Byte} (h : bytes.length = Config.imageSize) :
    Memory.image (listed 0 bytes) = bytes := by
  apply List.ext_getElem (by simp [Memory.image, h])
  intro i h1 h2
  have := read_listed bytes 0 i h2
  simpa [Memory.image] using this

/-- An image formed by SAVE IMAGE passes the CRC test. -/
theorem formed_checks {covered : List Byte} (h : covered.length = 933) :
    imageChecks (covered ++ crcBytes covered) = true := by
  have h2 : (crcBytes covered).length = 2 := rfl
  unfold imageChecks
  rw [decide_eq_true_iff, List.take_left' h, List.drop_left' h, List.take_of_length_le (by omega)]

/-- A part still loading, over a memory that holds the rig's image. -/
def loading : State := { State.reset with memory := listed 0 (formImage rig) }

theorem loading_judged : judgeImage loading.memory.image = judgeRecords (formImage rig) := by
  have h : imageChecks (formImage rig) = true := formed_checks (by decide +kernel)
  have hm : loading.memory.image = formImage rig := image_listed (by decide +kernel)
  have h2 : (formImage rig).take 2 = [0x4C, 0x43] := by decide +kernel
  have h3 : ((formImage rig).drop 2).take 3 = [1, 48, 32] := by decide +kernel
  rw [hm, judgeImage, if_neg (by rw [h2]; decide), if_neg (by rw [h2]; decide), if_neg (by rw [h3]; decide),
    if_neg (by rw [h]; decide)]

/-- The rig's image with one byte spoilt and its CRC made good. -/
def spoilt (i : Nat) (b : Byte) : List Byte :=
  let covered := ((formImage rig).take 933).set i b
  covered ++ crcBytes covered

/-- Whatever byte is spoilt, the CRC test passes. -/
theorem witness_spoilt_crc (i : Nat) (b : Byte) :
    crcBytes ((spoilt i b).take 933) = ((spoilt i b).drop 933).take 2 := by
  have h : imageChecks (spoilt i b) = true :=
    formed_checks (by rw [List.length_set]; decide +kernel)
  simpa [imageChecks] using h

/-- Axis record 7 spoilt in its present byte is the first to fail. -/
theorem witness_axis_test :
    (spoilt 117 2).length = Config.imageSize ∧ (spoilt 117 2).take 2 = [0x4C, 0x43] ∧
      ((spoilt 117 2).drop 2).take 3 = [1, 48, 32] ∧ AxisRecordFails (spoilt 117 2) 7 ∧
      ∀ k : AxisId, k < 7 → ¬ AxisRecordFails (spoilt 117 2) k := by
  decide +kernel

/-- Pair record 4 spoilt in its upper axis is the first to fail, and no axis record does. -/
theorem witness_pair_test :
    (∀ k : AxisId, ¬ AxisRecordFails (spoilt 794 48) k) ∧ PairRecordFails (spoilt 794 48) 4 ∧
      ∀ k : PairId, k < 4 → ¬ PairRecordFails (spoilt 794 48) k := by
  decide +kernel

/-- With nothing spoilt no record fails, and pair record 4 is defined. -/
theorem witness_loaded_test :
    (∀ k : AxisId, ¬ AxisRecordFails (spoilt 0 0x4C) k) ∧ (∀ k : PairId, ¬ PairRecordFails (spoilt 0 0x4C) k) ∧
      imagePair (spoilt 0 0x4C) 4 0 = 1 ∧ imagePair (spoilt 0 0x4C) 0 0 = 0 := by
  decide +kernel

theorem witness_load :
    loading.loader.state = .loading ∧
      ((judgeImage loading.memory.image).2.axes.getD 7 none).isSome = true ∧
      (judgeImage loading.memory.image).2.axes.getD 0 none = none ∧
      State.reset.loader.state = .loading ∧ (judgeImage State.reset.memory.image).1.state ≠ .loaded ∧
      State.reset.messages.posted = [] ∧ (State.reset.port 2).events = [] ∧ (State.reset.port 2).filter = 3 := by
  rw [loading_judged]
  decide +kernel

theorem witness_saved_image : ConfigurationLawful rig := by
  refine ⟨?_, ?_, ?_⟩
  · have h : ∀ a : AxisId, (match (rig.axis a).config with | some c => c.valid | none => true) = true := by
      decide +kernel
    intro a c hc
    have := h a
    rw [hc] at this
    exact this
  · have h : ∀ a : AxisId, (rig.axis a).config.map (·.station) =
        if a ∈ ([7, 8, 9, 31] : List AxisId) then some a.val else none := by decide +kernel
    intro a b c d hc hd hs
    have ha := h a
    have hb := h b
    rw [hc] at ha
    rw [hd] at hb
    by_cases h1 : a ∈ ([7, 8, 9, 31] : List AxisId) <;> by_cases h2 : b ∈ ([7, 8, 9, 31] : List AxisId)
    · rw [if_pos h1] at ha
      rw [if_pos h2] at hb
      injection ha with ha
      injection hb with hb
      exact Fin.ext (ha.symm.trans (hs.trans hb))
    · rw [if_neg h2] at hb; simp at hb
    · rw [if_neg h1] at ha; simp at ha
    · rw [if_neg h1] at ha; simp at ha
  · have h : ∀ n : PairId, (match rig.pairs.get n with
        | some pr => decide (pr.upper ≠ pr.lower) && decide (pr.gap ≤ 5000) | none => true) = true := by
      decide +kernel
    intro n pr hp
    have := h n
    rw [hp] at this
    simpa using this

theorem witness_save :
    Taken ready 0 (.saveImage 0 1) ∧ ready.loader.save = none ∧ Taken saving 2 (.saveImage 2 1) ∧
      saving.loader.save ≠ none ∧ Taken saving 0 (.putAxis 0 1 47 ⟨1, 1, 0, 1, 10, 10, 5, 0, 1⟩) ∧
      (axisOf 47).isSome = true ∧ Taken saving 0 (.putAxisRemove 0 1 47) ∧
      Taken saving 0 (.putPair 0 1 31 0 1 5000) ∧ (pairOf 31).isSome = true ∧ Taken saving 0 (.dropPair 0 1 31) ∧
      Taken saving 0 (.masterClear 0 1) := by decide +kernel

theorem witness_save_completion :
    saving.loader.save = some ⟨1, markedImage⟩ ∧ Memory.wf saving.memory = true ∧
      ((saving.memory.writeAll (saveWrites markedImage)).writeAll []).image = markedImage ∧
      ((saving.memory.writeAll (saveWrites markedImage)).writeAll [(934, 0)]).image[934]? ≠ markedImage[934]? ∧
      ((saving.memory.writeAll (saveWrites markedImage)).writeAll [(934, 0)]).image.take 934 =
        markedImage.take 934 := by decide +kernel

theorem witness_running_lane :
    (begun.lane 4).state = .running ∧ (begun.lane 4).plan = some planned12 ∧
      ((begun.context 4).map (·.due)) = some true ∧
      ((planned12.members.filter (fun m => decide (m.distance ≠ 0))).map (·.axis)).Nodup ∧
      (begun.axis 7).state = .moving ∧ (begun.axis 7).arriving = false ∧
      (begun.lane 4).requestedRate = (begun.lane 4).effectiveRate ∧
      ((withLane 4 (fun ln => { ln with effectiveRate := 253 }) begun).lane 4).effectiveRate + 2 <
        ((withLane 4 (fun ln => { ln with effectiveRate := 253 }) begun).lane 4).requestedRate ∧
      ((withLane 4 (fun ln => { ln with requestedRate := 0 }) begun).lane 4).requestedRate + 2 <
        ((withLane 4 (fun ln => { ln with requestedRate := 0 }) begun).lane 4).effectiveRate := by decide +kernel

/-- A lane's context with its release count and due mark set. -/
def counted (n : Nat) (due : Bool) (s : State) : State :=
  s.setContext 4 ((s.context 4).map (fun c => { c with releaseCount := n, due := due }))

theorem witness_releasing_lane :
    ((counted 198 true releasing).lane 4).state = .releasing ∧
      (((counted 198 true releasing).context 4).map (fun c => (c.due, c.releaseCount))) = some (true, 198) ∧
      (((counted 199 true releasing).context 4).map (fun c => (c.due, c.releaseCount))) = some (true, 199) ∧
      (((counted 199 true releasing).context 4).map (fun c => c.members.any (fun m => !m.tracking))) = some true ∧
      ((run (.halt 2 9 4) moved).lane 4).state = .stopping ∧
      (((counted 0 true (run (.halt 2 9 4) moved)).context 4).map (·.due)) = some true ∧
      ((releasing.context 4).map (·.due)) = some false := by decide +kernel

theorem witness_distance_covered :
    0 < 150 ∧ 2 * 150 ≤ 1684 ∧ 256333 * (1684 - 150) ≤ 393216000 ∧
      0 < 10 ∧ 2 * 10 ≤ 20 ∧ 0 * (20 - 10) ≤ 0 ∧
      0 < 1 ∧ 38400 ≤ 256 * 150 ∧ 256 * 150 < 38401 ∧ 392704 ≤ 256 * 1684 - 256 * 150 ∧
      256 * 1684 - 256 * 150 < 392705 ∧ 431103 < 256 * 1684 ∧ ((256 * 1684 : Nat) : Int) ≤ 431104 := by decide

theorem witness_planned_member :
    (planning.planner.inProgress.map (fun j => decide (10 ≤ j.rs) && j.members.all (fun m =>
      decide (m.distance ≠ 0) && decide (10 ≤ m.vmax) && decide (1 ≤ m.cap)))) = some true := by decide +kernel

/-- Axis 7 on a stop trajectory, at a step index, in a direction, at a height. -/
def stopping (index : Nat) (d : Direction) (v : Nat) : State :=
  (withAxis 7 (fun ax => { ax with state := .stopping, setpoint := some v }) rig).setStop 7
    (some ⟨256333, d, 150, index, false, true⟩)

/-- Lane 4 STOPPING after its first period, and with axis 7 alone left at its last stop step. -/
def halted : State := run (.halt 2 9 4) moved
def lastStop : State :=
  (withAxis 8 (fun ax => { ax with state := .rest }) halted).setStop 7
    ((halted.stop 7).map (fun r => { r with index := 149, due := true }))

theorem witness_stop_step :
    ((stopping 0 .up 786431000).stop 7).map (·.due) = some true ∧ ((stopping 0 .up 786431000).axis 7).config.isSome = true ∧
      ((stopping 0 .up 786431000).axis 7).setpoint = some 786431000 ∧ 148 + 1 < 150 ∧ 150 ≤ 149 + 1 ∧
      ((stopping 149 .down 5).stop 7).map (·.due) = some true ∧ ((stopping 149 .down 5).axis 7).setpoint = some 5 ∧
      (halted.stop 7).map (·.due) = some false ∧ (lastStop.stop 7).map (fun r => (r.due, r.index + 1)) = some (true, 150) ∧
      (lastStop.axis 7).owner = some 4 ∧ (lastStop.lane 4).state = .stopping ∧
      ((run (.stopTrajectoryStep 7) lastStop).lane 4).state = .held := by
  decide +kernel

def arrived (st : AxisState) : State := withAxis 7 (fun ax => { ax with state := st, arriving := true }) running

def marking (n : MarkNotice) : State := releasing.updMessages (fun m => { m with markNotices := [n] })

theorem witness_arrival_and_mark :
    ((arrived .moving).axis 7).arriving = true ∧ ((arrived .moving).axis 7).state = .moving ∧
      ((arrived (.faulted .loadHigh)).axis 7).state ≠ .moving ∧
      (marking ⟨7, true, .follow, true⟩).messages.markNotices.find? (fun x => decide (x.axis = 7)) =
        some ⟨7, true, .follow, true⟩ ∧
      ((marking ⟨7, true, .follow, true⟩).axis 7).owner = some 4 ∧
      ((marking ⟨7, true, .follow, true⟩).context 4).isSome = true ∧
      ¬ ((⟨7, true, .brake, true⟩ : MarkNotice).tracking = true ∧
        (⟨7, true, .brake, true⟩ : MarkNotice).mode = .follow ∧
        (⟨7, true, .brake, true⟩ : MarkNotice).sinceMoving = true) ∧
      ((marking ⟨7, true, .follow, true⟩).context 4).map (·.expiry) = some none ∧
      ((releasing.setContext 4 ((releasing.context 4).map (fun c => { c with expiry := some [7] }))).context 4).map
        (·.expiry) ≠ some none := by decide +kernel

theorem witness_ok_plan :
    (planned.lane 4).state = .planning ∧ (planned.lane 4).planResult = some (.ok planned12) ∧
      (∃ m ∈ planned12.members, m.distance ≠ 0 ∧ m.axis = 7) ∧ (planned.axis 7).state = .rest ∧
      (∀ m ∈ planned12.members, m.axis = 31 → m.distance = 0) ∧
      (planned.station 7).map (fun e => e.frame.map (·.sinceMoving)) = some (some true) ∧
      ((run (.planResult 4) planned).station 7).map (fun e => e.frame.map (·.sinceMoving)) = some (some false) ∧
      (run (.planResult 4) (planned.updMessages (fun m => { m with
        markNotices := [⟨7, true, .follow, true⟩, ⟨31, true, .follow, true⟩] }))).messages.markNotices =
        [⟨7, true, .follow, false⟩, ⟨31, true, .follow, true⟩] := by decide +kernel

def failing (r : PlanResult) (resume : Bool) : State :=
  withLane 4 (fun ln => { ln with planResult := some r, resume := resume }) planning

theorem witness_failed_plan :
    ((failing (.void 7) false).lane 4).state = .planning ∧
      ((failing (.void 7) false).lane 4).planResult = some (.void 7) ∧ ((failing (.void 7) false).lane 4).resume = false ∧
      ((failing .tooLong true).lane 4).planResult = some .tooLong ∧ ((failing .tooLong true).lane 4).resume = true ∧
      ((failing (.interlock 31) false).lane 4).planResult = some (.interlock 31) := by decide +kernel

theorem witness_release_end :
    (tracked.lane 4).state = .releasing ∧ (tracked.context 4).map (fun c => c.members.all (·.tracking)) = some true ∧
      (releasing.context 4).map (fun c => c.members.any (fun m => !m.tracking)) = some true := by decide +kernel

def expired : State := releasing.setContext 4 ((releasing.context 4).map (fun c => { c with expiry := some [8, 9] }))

theorem witness_release_timeout :
    (expired.lane 4).state = .releasing ∧ (expired.context 4).map (·.expiry) = some (some [8, 9]) ∧
      (expired.axis 8).state = .moving ∧ (7 : AxisId) ∉ ([8, 9] : List AxisId) ∧ 7 ∈ (expired.lane 4).claimSet ∧
      (expired.axis 7).state = .moving ∧ (expired.axis 31).state ≠ .moving ∧
      ((withAxis 8 (fun ax => { ax with state := .offline }) expired).axis 8).state = .offline ∧
      ((run (.releaseTimeout 4) (withAxis 8 (fun ax => { ax with state := .offline }) expired)).lane 4).haltCause =
        .fault 9 ∧
      ((run (.releaseTimeout 4) (withAxis 8 (fun ax => { ax with state := .offline })
        (withAxis 9 (fun ax => { ax with state := .offline }) expired))).lane 4).haltCause = .fault 8 := by
  decide +kernel

/-- The timeout of a resume, one of its reported members at REST. -/
def expiredResume : State := withLane 4 (fun ln => { ln with resume := true })
  (withAxis 8 (fun ax => { ax with state := .rest }) expired)

theorem witness_release_timeout_resume :
    (expiredResume.lane 4).state = .releasing ∧ (expiredResume.context 4).map (·.expiry) = some (some [8, 9]) ∧
      (expiredResume.lane 4).resume = true ∧ (expiredResume.axis 8).state = .rest ∧
      ((run (.releaseTimeout 4) expiredResume).axis 8).state = .faulted .brakeTimeout ∧
      ((run (.releaseTimeout 4) expiredResume).lane 4).inbox = [.fault 8, .fault 9] ∧
      ((run (.releaseTimeout 4) expiredResume).lane 4).plan.map (·.frozen) = some 0 := by decide +kernel

/-- Lane 4 at the end of its profile, its current step as given. -/
def finished (st : Step) (f : Lane → Lane) : State :=
  withLane 4 f { running with
    cues := { running.cues with slots := running.cues.slots.set 12 (some st) }
    contexts := running.contexts.modify 4 (fun co => co.map (fun c => { c with profileEnd := true })) }

theorem witness_step_completion :
    ((finished step12 id).lane 4).state = .running ∧
      ((finished step12 id).context 4).map (·.profileEnd) = some true ∧
      ((finished step12 id).lane 4).current = some (.numbered 12) ∧ currentStep (finished step12 id) 4 = some step12 ∧
      ((finished step12 id).lane 4).base = some (.numbered 12) ∧ ((finished step12 id).lane 4).repeatRemaining = 0 ∧
      ((finished { step12 with next := some 12 } id).cues.slots.get 12).isSome = true ∧
      ((finished step12 (fun ln => { ln with repeatRemaining := 255 })).lane 4).repeatRemaining = 255 ∧
      ((finished step12 (fun ln => { ln with repeatRemaining := 1 })).lane 4).repeatRemaining ≠ 255 ∧
      ((finished { step12 with next := some 511 } id).cues.slots.get 511) = none := by decide +kernel

theorem witness_step_completion_goes_on :
    ((finished step12 (fun ln => { ln with repeatRemaining := 1, holdLatch := true })).lane 4).holdLatch = true ∧
      ((finished step12 (fun ln => { ln with repeatRemaining := 1 })).lane 4).holdLatch = false ∧
      currentStep (finished { step12 with follow := .timed 0 } id) 4 = some { step12 with follow := .timed 0 } ∧
      currentStep (finished { step12 with follow := .timed 65535 } id) 4 =
        some { step12 with follow := .timed 65535 } ∧
      currentStep (finished { step12 with follow := .linked 4 1 } id) 4 = some { step12 with follow := .linked 4 1 } ∧
      currentStep (finished { step12 with follow := .linked 3 15 } id) 4 =
        some { step12 with follow := .linked 3 15 } ∧
      ((finished { step12 with follow := .timed 0 } (fun ln => { ln with repeatRemaining := 1 })).lane 4).controller =
        some 2 ∧
      ((run (.stepCompletion 4) (finished { step12 with follow := .timed 0 }
        (fun ln => { ln with repeatRemaining := 1 }))).lane 4).state = .planning ∧
      ((run (.stepCompletion 4) { (finished { step12 with follow := .timed 0 }
        (fun ln => { ln with repeatRemaining := 1 })) with latch := true }).lane 4).state = .ready := by decide +kernel

/-- Lane 4 in FOLLOW at step 12. -/
def waiting (kind : FollowKind) (count : Nat) : State :=
  withLane 4 (fun ln => { ln with
    state := .follow, followKind := some kind, followCounter := count, followDue := true, decrements := 1 }) rig

theorem witness_follow_wait :
    ((waiting .timed 2).lane 4).state = .follow ∧ ((waiting .timed 2).lane 4).followKind = some .timed ∧
      ((waiting .timed 2).lane 4).followDue = true ∧ 1 < ((waiting .timed 2).lane 4).followCounter ∧
      0 < ((waiting (.linked 0) 2).lane 4).decrements ∧ (rig.lane 4).state ≠ .follow ∧
      ((waiting .timed 1).lane 4).followCounter = 1 ∧ ((waiting .timed 1).lane 4).controller = some 2 ∧
      firstRefusal (waiting .timed 1) 4 2 = none ∧
      firstRefusal { (waiting .timed 1) with latch := true } 4 2 = some ⟨.estop, none, none⟩ := by decide +kernel

/-- A delivery waits for lane 4. -/
def told (m : LaneMessage) (s : State) : State := s.deliver 4 m

theorem witness_emergency :
    LaneMessage.emergency ∈ ((told .emergency rig).lane 4).inbox ∧ ((told .emergency rig).lane 4).state = .ready ∧
      LaneMessage.emergency ∈ ((told .emergency planning).lane 4).inbox ∧
      ((told .emergency planning).lane 4).state = .planning ∧ ((told .emergency planning).lane 4).resume = false ∧
      ((told .emergency (failing .tooLong true)).lane 4).resume = true ∧
      ((told .emergency moved).lane 4).state = .running ∧ ((told .emergency moved).context 4).isSome = true ∧
      ((told .emergency releasing).lane 4).state = .releasing := by decide +kernel

theorem witness_controlled_stop :
    (moved.lane 4).state = .running ∧ (moved.context 4).isSome = true ∧ (moved.lane 4).controller = some 2 ∧
      LaneMessage.enableLoss 2 ∈ ((told (.enableLoss 2) moved).lane 4).inbox ∧ (moved.axis 9).owner = some 4 ∧
      ((told (.fault 9) moved).lane 4).inbox = [] ++ LaneMessage.fault 9 :: [] ∧
      (moved.pairs.get 6).map (·.lower) = some 7 ∧ (moved.axis 7).owner = some 4 ∧
      LaneMessage.trip 6 ∈ ((told (.trip 6) moved).lane 4).inbox ∧ laneOf 4 = some 4 ∧
      Taken moved 0 (.halt 0 1 4) ∧ (halted.lane 4).state = .stopping ∧
      (running.lane 4).state = .running ∧ (running.context 4).isSome = true ∧
      ((run (.halt 2 9 4) running).lane 4).state = .held := by decide +kernel

theorem witness_halt_elsewhere :
    laneOf 4 = some 4 ∧ Taken rig 1 (.halt 1 1 4) ∧ (rig.lane 4).state = .ready ∧
      Taken (waiting .timed 2) 1 (.halt 1 1 4) ∧ ((waiting .timed 2).lane 4).state = .follow ∧
      Taken planning 1 (.halt 1 1 4) ∧ (planning.lane 4).state = .planning ∧ (planning.lane 4).resume = false ∧
      (rig.lane 4).controller = some 2 ∧ LaneMessage.enableLoss 2 ∈ ((told (.enableLoss 2) rig).lane 4).inbox ∧
      ((withLane 4 (fun ln => { ln with resume := true }) releasing).lane 4).state = .releasing ∧
      (releasing.context 4).isSome = true ∧ (rig.lane 4).controller ≠ some 0 ∧
      LaneMessage.enableLoss 0 ∈ ((told (.enableLoss 0) rig).lane 4).inbox ∧
      Taken releasing 1 (.halt 1 1 4) ∧ (releasing.lane 4).resume = false ∧ ((failing .tooLong true).lane 4).resume = true ∧
      ((told (.enableLoss 2) (waiting .timed 2)).lane 4).state = .follow ∧
      LaneMessage.enableLoss 2 ∈ ((told (.enableLoss 2) planning).lane 4).inbox ∧
      LaneMessage.enableLoss 2 ∈ ((told (.enableLoss 2) releasing).lane 4).inbox := by decide +kernel

/-- Two fault notices for lane 4, the one of axis 8 the older. -/
def twice (s : State) : State := told (.fault 7) (told (.fault 8) (told (.hold 0) s))

theorem witness_notices_elsewhere :
    ((twice releasing).lane 4).inbox = [.hold 0] ++ LaneMessage.fault 8 :: [.fault 7] ∧
      (∀ b : AxisId, LaneMessage.fault b ∉ [LaneMessage.hold 0]) ∧ ((twice releasing).axis 8).owner = some 4 ∧
      ((twice releasing).lane 4).state = .releasing ∧ ((twice halted).lane 4).state = .stopping ∧
      ((twice planning).lane 4).state = .planning ∧ ((twice rig).axis 8).owner ≠ some 4 ∧
      (run (.faultNotice 4 7) (twice halted)) = twice halted ∧
      LaneMessage.trip 6 ∈ ((told (.trip 6) releasing).lane 4).inbox ∧ (releasing.lane 4).state ≠ .running := by
  decide +kernel

def armed (s : State) : State := withLane 4 (fun ln => { ln with holdSource := some 3 }) (told (.hold 3) s)

theorem witness_hold_assertion :
    LaneMessage.hold 3 ∈ ((armed moved).lane 4).inbox ∧ ((armed moved).lane 4).holdSource = some 3 ∧
      ((armed moved).lane 4).state = .running ∧ ((armed (waiting .timed 2)).lane 4).state = .follow ∧
      LaneMessage.hold 3 ∈ ((armed (waiting .timed 2)).lane 4).inbox ∧
      LaneMessage.hold 0 ∈ ((told (.hold 0) moved).lane 4).inbox ∧ (moved.lane 4).holdSource ≠ some 0 ∧
      ((armed rig).lane 4).state = .ready := by decide +kernel

/-- The plan in progress with one thing spoilt. -/
def spoiltJob (f : PlanJob → PlanJob) : State :=
  { planning with planner := { planning.planner with inProgress := planning.planner.inProgress.map f } }

theorem witness_plan_completion :
    planning.planner.inProgress.isSome = true ∧ (planning.planner.inProgress.map (·.withdrawn)) = some false ∧
      (planning.planner.inProgress.map (fun j => j.members.any (memberVoid planning j.lane))) = some false ∧
      (planning.planner.inProgress.map (fun j => j.pairs.any j.breaks)) = some false ∧
      (planning.planner.inProgress.map (fun j => decide (j.duration ≤ 1048575))) = some true ∧
      ((spoiltJob (fun j => { j with tn := 1048576 })).planner.inProgress.map (·.duration)) = some 1048576 ∧
      ((spoiltJob (fun j => { j with withdrawn := true })).planner.inProgress.map (·.withdrawn)) = some true ∧
      ((planning.planner.inProgress.map (fun j =>
        j.members.any (memberVoid (withAxis 9 (fun ax => { ax with state := .offline }) planning) j.lane)))) = some true ∧
      ((spoiltJob (fun j => { j with pairs := j.pairs.map (fun x => { x with gap := 5000 }) })).planner.inProgress.map
        (fun j => j.pairs.any j.breaks)) = some true ∧
      planning.planner.queue = [] ∧
      (4 : LaneId) ∈ (run (.halt 2 9 4) planning).planner.withdrawals := by decide +kernel

/-- The checks of the plan of 5.7 find nothing; an axis gone OFFLINE fails the void check, and pair 4 with a gap of 5000
the gap check; another lane may wait behind it. -/
theorem witness_plan_checks :
    (∀ j, planning.planner.inProgress = some j →
      (∀ m ∈ j.members, ¬ FailsVoidCheck planning j.lane m) ∧ (∀ x ∈ j.pairs, ¬ BreaksGap j x) ∧
      (∃ m ∈ j.members, FailsVoidCheck (withAxis 9 (fun ax => { ax with state := .offline }) planning) j.lane m) ∧
      ∃ x ∈ j.pairs, BreaksGap j { x with gap := 5000 }) ∧
    ({ planning with planner := { planning.planner with queue := [3] } } : State).planner.queue = 3 :: [] := by
  refine ⟨?_, rfl⟩
  have h : (match planning.planner.inProgress with
      | none => false
      | some j => j.members.all (fun m => !memberVoid planning j.lane m) && j.pairs.all (fun x => !j.breaks x) &&
          j.members.any (memberVoid (withAxis 9 (fun ax => { ax with state := .offline }) planning) j.lane) &&
          j.pairs.any (fun x => j.breaks { x with gap := 5000 })) = true := by decide +kernel
  intro j hj
  rw [hj] at h
  simp only [Bool.and_eq_true, List.all_eq_true, List.any_eq_true, Bool.not_eq_true'] at h
  simp only [← memberVoid_iff, ← breaks_iff, Bool.not_eq_true]
  exact ⟨h.1.1.1, h.1.1.2, h.1.2, h.2⟩

theorem witness_control :
    Taken rig 0 (.take 0 1 7) ∧ laneOf 7 = some 7 ∧ (rig.lane 7).controller = none ∧
      Taken rig 2 (.take 2 1 4) ∧ (rig.lane 4).controller = some 2 ∧ Taken rig 0 (.take 0 1 4) ∧
      rig.enabled 2 = true ∧ State.reset.enabled 2 = false ∧
      ({ rig with lines := State.reset.lines } : State).enabled 2 = false ∧ (rig.lane 4).state = .ready ∧
      Taken rig 2 (.yield 2 1 4) ∧ Taken moved 2 (.yield 2 1 4) ∧ (moved.lane 4).state = .running := by decide +kernel

def heldLane (s : State) : State := withLane 4 (fun ln => { ln with state := .held }) s
def idleLane (s : State) : State := withLane 4 (fun ln => { ln with state := .idle }) s

theorem witness_load_and_clear :
    laneOf 4 = some 4 ∧ (rig.lane 4).controller = some 2 ∧ Taken rig 2 (.load 2 1 4 12) ∧ stepOf 12 = some 12 ∧
      stepOf 511 = some 511 ∧ (rig.lane 4).state = .ready ∧ (rig.cues.slots.get 12).isSome = true ∧
      (rig.cues.slots.get 511) = none ∧ Taken (heldLane rig) 2 (.load 2 1 4 12) ∧
      Taken rig 2 (.load 2 1 4 512) ∧ 511 < (512 : Half).toNat ∧
      ((heldLane rig).lane 4).state = .held ∧ Taken moved 2 (.load 2 1 4 12) ∧ (moved.lane 4).state = .running ∧
      Taken (idleLane rig) 2 (.clearLane 2 1 4) ∧ ((idleLane rig).lane 4).state = .idle ∧
      Taken moved 2 (.clearLane 2 1 4) := by decide +kernel

theorem witness_settings :
    laneOf 4 = some 4 ∧ (rig.lane 4).controller = some 2 ∧ Taken rig 2 (.setRate 2 1 4 65535) ∧
      Taken rig 2 (.setRepeat 2 1 4 255) ∧ Taken rig 2 (.setHoldLine 2 1 4 4) ∧
      (4 : Byte).toNat = (3 : HoldLine).val + 1 ∧ 4 < (5 : Byte).toNat := by decide +kernel

theorem witness_claim_tests :
    (moved.axis 7).owner = some 4 ∧ (rig.axis 0).owner ≠ some 4 ∧ (rig.axis 0).state = .unconfigured ∧
      (rig.axis 31).state = .rest ∧ (rig.axis 31).lock = false ∧ (rig.axis 31).owner = none ∧
      ((withAxis 31 (fun ax => { ax with lock := true }) rig).axis 31).lock = true ∧
      ((withAxis 31 (fun ax => { ax with owner := some 3 }) rig).axis 31).owner = some 3 := by decide +kernel

theorem witness_go :
    laneOf 4 = some 4 ∧ (rig.lane 4).controller = some 2 ∧ Taken rig 2 (.go 2 1 4) ∧ (rig.lane 4).state = .ready ∧
      firstRefusal rig 4 2 = none ∧ firstRefusal { rig with latch := true } 4 2 = some ⟨.estop, none, none⟩ ∧
      firstRefusal { rig with lines := State.reset.lines } 4 2 = some ⟨.notEnabled, none, none⟩ ∧
      firstRefusal { rig with cues := CueStore.reset } 4 2 = some ⟨.noStep, none, none⟩ ∧
      firstRefusal (withAxis 9 (fun ax => { ax with owner := some 0 }) rig) 4 2 =
        some ⟨.conflict, some 9, some 0⟩ ∧
      Taken (waiting .timed 2) 2 (.go 2 1 4) ∧ ((waiting .timed 2).lane 4).state = .follow ∧
      Taken moved 2 (.go 2 1 4) ∧ (moved.lane 4).state = .running ∧
      firstRefusal (heldLane rig) 4 2 = none ∧ ((heldLane rig).lane 4).state = .held := by decide +kernel

def directMoves : List RawMove := [⟨31, 40000, some 0, some 4095⟩]

theorem witness_direct :
    laneOf 4 = some 4 ∧ (rig.lane 4).controller = some 2 ∧ Taken rig 2 (.direct 2 1 4 400 65535 directMoves) ∧
      movesLawful 4 directMoves ∧ (10 ≤ (400 : Half).toNat ∧ (400 : Half).toNat ≤ 400) ∧ (rig.lane 4).state = .ready ∧
      ¬ movesLawful 4 ([⟨7, 0, none, none⟩, ⟨7, 0, none, none⟩] : List RawMove) ∧
      Taken rig 2 (.direct 2 1 4 9 0 []) ∧
      Taken (heldLane rig) 2 (.direct 2 1 4 400 65535 directMoves) ∧ ((heldLane rig).lane 4).state = .held ∧
      (run (.direct 2 1 4 400 65535 directMoves) rig).planner.inProgress.isSome = true := by
  decide +kernel

theorem witness_get :
    laneOf 7 = some 7 ∧ Taken rig 0 (.getLane 0 1 7) ∧ axisOf 47 = some 47 ∧ Taken rig 0 (.getAxis 0 1 47) ∧
      stepOf 12 = some 12 ∧ (rig.cues.slots.get 12).isSome = true ∧ Taken rig 0 (.getStep 0 1 0 12) ∧
      stepOf 0 = some 0 ∧ (∀ k : StepNo, (0 : StepNo) ≤ k → k < 12 → rig.cues.slots.get k = none) ∧
      Taken rig 0 (.getStep 0 1 1 0) ∧
      ((run (.direct 2 1 4 400 65535 directMoves) rig).cues.privates.get 4).isSome = true ∧
      Taken (run (.direct 2 1 4 400 65535 directMoves) rig) 0 (.getStep 0 1 2 4) ∧
      rig.cues.slots.get 511 = none ∧ Taken rig 0 (.getStep 0 1 0 511) := by decide +kernel

theorem witness_get_refused :
    (∀ k : StepNo, (13 : StepNo) ≤ k → ready.cues.slots.get k = none) ∧ stepOf 13 = some 13 ∧
      Taken ready 0 (.getStep 0 1 1 13) ∧ rig.cues.privates.get 7 = none ∧ Taken rig 0 (.getStep 0 1 2 7) ∧
      Taken rig 0 (.getAxis 0 1 48) ∧ 47 < (48 : Byte).toNat ∧ Taken rig 0 (.getStep 0 1 3 0) ∧ 2 < (3 : Byte).toNat ∧
      511 < (512 : Half).toNat ∧ 7 < (8 : Half).toNat := by
  refine ⟨fun k _ => ?_, by decide +kernel⟩
  rw [show ready.cues.slots = Table.fill 512 none from rfl, Table.get_fill]

theorem witness_controller_only :
    Taken rig 0 (.take 0 1 8) ∧ laneOf 8 = none ∧ laneOf 7 = some 7 ∧ (rig.lane 4).controller ≠ some 0 ∧
      Taken rig 0 (.go 0 1 4) ∧ Taken rig 0 (.direct 0 1 8 10 0 directMoves) ∧ Taken rig 0 (.setHoldLine 0 1 8 0) := by
  decide +kernel

theorem witness_put_and_drop_step :
    stepOf 200 = some 200 ∧ Taken crowded 0 (.putStep 0 1 200 (bodyOf 6)) ∧ (checkStep (bodyOf 6)).isSome = true ∧
      inUse crowded 200 = false ∧ crowded.cues.free + entries (crowded.cues.slots.get 200) < 6 ∧
      5 ≤ crowded.cues.free + entries (crowded.cues.slots.get 200) ∧ inUse rig 12 = true ∧
      Taken rig 0 (.putStep 0 1 12 (bodyOf 16)) ∧ Taken crowded 0 (.dropStep 0 1 200) ∧
      (crowded.cues.slots.get 200).isSome = true ∧ crowded.cues.slots.get 511 = none ∧ stepOf 511 = some 511 := by
  decide +kernel

theorem witness_step_fields :
    stepLawful (bodyOf 16) ∧ ¬ stepLawful (bodyOf 17) ∧ ¬ stepLawful (bodyOf 0) ∧
      stepLawful { bodyOf 1 with followKind := 2, followA := 7, followB := 15, next := 511 } ∧
      ¬ stepLawful { bodyOf 1 with followKind := 2, followA := 7, followB := 16 } ∧
      Taken crowded 0 (.putStep 0 1 512 (bodyOf 1)) ∧ 511 < (512 : Half).toNat ∧
      Taken crowded 0 (.putStep 0 1 0 (bodyOf 17)) ∧ Taken crowded 0 (.dropStep 0 1 512) := by
  refine ⟨?_, ?_, ?_, ?_, ?_, ?_⟩
  all_goals decide +kernel

theorem witness_fault_request :
    ((7, FaultCause.loadHigh) : AxisId × FaultCause) ∈
        (moved.updMessages (fun m => { m with faultRequests := [(7, .loadHigh)] })).messages.faultRequests ∧
      (moved.axis 7).state = .moving ∧ (moved.axis 0).state = .unconfigured := by decide +kernel

def noticed (n : StationNotice) (s : State) : State := s.updMessages (fun m => { m with stationNotices := [n] })

theorem witness_station_notice :
    (noticed ⟨7, some 5⟩ rig).messages.stationNotices.find? (fun x => decide (x.axis = 7)) = some ⟨7, some 5⟩ ∧
      (∀ x ∈ (noticed ⟨7, some 5⟩ rig).messages.replyChecks, x.axis ≠ 7) ∧ (rig.axis 7).config.isSome = true ∧
      ((withAxis 7 (fun ax => { ax with state := .offline }) rig).axis 7).state = .offline ∧
      (noticed ⟨7, none⟩ moved).messages.stationNotices.find? (fun x => decide (x.axis = 7)) = some ⟨7, none⟩ ∧
      ((noticed ⟨7, none⟩ moved).axis 7).state = .moving ∧ (rig.axis 7).state = .rest ∧
      (rig.axis 0).state = .unconfigured ∧ (∀ x ∈ (noticed ⟨7, some 5⟩ rig).messages.faultRequests, x.1 ≠ 7) ∧
      (noticed ⟨7, none⟩ rig).messages.stationNotices.find? (fun x => decide (x.axis = 7)) = some ⟨7, none⟩ ∧
      (noticed ⟨0, none⟩ rig).messages.stationNotices.find? (fun x => decide (x.axis = 0)) = some ⟨0, none⟩ ∧
      (∃ x ∈ ((noticed ⟨7, some 5⟩ rig).updMessages (fun m => { m with
        faultRequests := [(7, .driveFault)] })).messages.faultRequests, x.1 = 7) := by decide +kernel

/-- A record of Table 12-7 at the ends of its ranges. -/
def rawAt (station low high : Nat) : RawConfig :=
  ⟨1, BitVec.ofNat 8 station, BitVec.ofNat 16 low, BitVec.ofNat 16 high, 2000, 400, 500, 0, 4000⟩

theorem witness_put_axis :
    axisOf 47 = some 47 ∧ (rawAt 63 0 40000).present ≠ 0 ∧ Taken rig 0 (.putAxis 0 1 47 (rawAt 63 0 40000)) ∧
      (rig.axis 47).owner = none ∧ (rig.axis 47).state = .unconfigured ∧
      (rig.axis 7).config.map (·.station) = some (rawAt 7 0 12000).station.toNat ∧
      (rig.axis 7).setpoint = some (2000 * 65536) ∧ 2000 * 65536 < (rawAt 7 2001 12000).low.toNat * 65536 ∧
      (rawAt 7 2000 2001).low.toNat * 65536 ≤ 2000 * 65536 ∧ (moved.axis 7).state = .moving ∧
      (moved.axis 7).owner ≠ none ∧ Taken moved 0 (.putAxis 0 1 7 (rawAt 7 0 12000)) := by decide +kernel

theorem witness_put_axis_fields :
    configLawful (rawAt 63 0 40000) ∧ ¬ configLawful (rawAt 64 0 40000) ∧ ¬ configLawful (rawAt 63 1 1) ∧
      Taken rig 0 (.putAxis 0 1 48 (rawAt 63 0 40000)) ∧ 47 < (48 : Byte).toNat := by
  decide +kernel

theorem witness_remove_axis :
    axisOf 7 = some 7 ∧ Taken rig 0 (.putAxisRemove 0 1 7) ∧ rig.loader.save = none ∧ (rig.axis 7).owner = none ∧
      (rig.axis 7).state ≠ .moving ∧ (rig.axis 7).state ≠ .stopping ∧
      (rig.pairs.get 6).map (·.lower) = some 7 ∧ Taken moved 0 (.putAxisRemove 0 1 7) ∧
      Taken rig 0 (.putAxisRemove 0 1 48) ∧ 47 < (48 : Byte).toNat ∧
      (moved.axis 7).owner ≠ none := by decide +kernel

theorem witness_lock_set : Taken rig 0 (.lockSet 0 1 0 (BitVec.allOnes 48)) := by decide +kernel

def faulted7 (s : State) : State := withAxis 7 (fun ax => { ax with state := .faulted .following }) s

theorem witness_clear_fault :
    axisOf 7 = some 7 ∧ Taken (faulted7 rig) 0 (.clearFault 0 1 7) ∧
      ((faulted7 rig).axis 7).state = .faulted .following ∧ ((faulted7 rig).axis 7).owner = none ∧
      (faulted7 rig).online 7 = true ∧ ((faulted7 rig).station 7).map (fun e => e.lastReply.map (·.fault)) = some (some false) ∧
      ((faulted7 moved).axis 7).owner = some 4 ∧ ((faulted7 moved).lane 4).state = .running ∧
      Taken (faulted7 moved) 0 (.clearFault 0 1 7) ∧ (rig.axis 7).state = .rest ∧
      ((faulted7 rig).setStation 7 none).online 7 = false ∧ Taken rig 0 (.clearFault 0 1 48) ∧
      47 < (48 : Byte).toNat := by decide +kernel

theorem witness_pairs :
    Taken rig 0 (.putPair 0 1 31 7 8 5000) ∧ pairOf 31 = some 31 ∧ 31 < (32 : Byte).toNat ∧
      rig.loader.save = none ∧ axisOf 47 = some 47 ∧ 47 < (48 : Byte).toNat ∧ 5000 < (5001 : Half).toNat ∧
      (7 : AxisId) ≠ 8 ∧ (rig.axis 7).owner = none ∧ (rig.axis 8).owner = none ∧ rig.pairs.get 31 = none ∧
      Taken rig 0 (.dropPair 0 1 6) ∧ (rig.pairs.get 6).isSome = true ∧ saving.loader.save ≠ none ∧
      (moved.axis 7).owner ≠ none ∧ (moved.pairs.get 6).map (·.lower) = some 7 := by decide +kernel

theorem witness_trip :
    moved.pairs.get 6 = some ⟨31, 7, 800, some 7500⟩ ∧ (moved.axis 31).config ≠ none ∧ (moved.axis 7).config ≠ none ∧
      (moved.axis 31).setpoint = some (9500 * 65536) ∧
      ((9500 * 65536 / 65536 : Nat) : Int) - ((8701 * 65536 / 65536 : Nat) : Int) < ((800 : Nat) : Int) ∧
      ((9500 : Int) - 8701 < 7500) ∧ (moved.axis 7).owner = some 4 ∧ (moved.lane 4).state = .running ∧
      LaneMessage.trip 6 ∈ ((moveSetpoint 7 (8701 * 65536) moved).lane 4).inbox ∧
      LaneMessage.trip 6 ∉ ((moveSetpoint 7 (8700 * 65536) moved).lane 4).inbox ∧
      (moveSetpoint 7 (8701 * 65536) moved).messages.posted.map (·.body) =
        moved.messages.posted.map (·.body) ++ [.interlock 6 31 7 799 800 7 [4]] ∧
      (moveSetpoint 7 (8701 * 65536) halted).messages.posted = halted.messages.posted ∧
      (withAxis 31 (fun ax => { ax with setpoint := none }) moved).axis 31 ≠ moved.axis 31 ∧
      ((moveSetpoint 7 (8701 * 65536) (withAxis 31 (fun ax => { ax with setpoint := none }) moved)).pairs.get 6).map
        (·.lastGap) = some (some 799) := by decide +kernel

/-- A reply handed to the Supervisor for axis 7. -/
def checking (c : ReplyCheck) (s : State) : State := s.updMessages (fun m => { m with replyChecks := [c] })

theorem witness_reply_check :
    (checking ⟨7, ⟨true, false, false, 0, 400⟩, 50 * 65536, .hold⟩ rig).messages.replyChecks.find?
        (fun x => decide (x.axis = 7)) = some ⟨7, ⟨true, false, false, 0, 400⟩, 50 * 65536, .hold⟩ ∧
      (rig.axis 7).config = some (config 7 1200 150) ∧
      (run (.supervisorReplyCheck 7) (checking ⟨7, ⟨true, false, false, 0, 400⟩, 50 * 65536, .hold⟩ rig)).messages.faultRequests =
        [] ∧
      (run (.supervisorReplyCheck 7) (checking ⟨7, ⟨true, false, false, 0, 400⟩, 50 * 65536 + 1, .hold⟩ rig)).messages.faultRequests =
        [(7, .following)] ∧
      (run (.supervisorReplyCheck 7) (checking ⟨7, ⟨true, false, true, 0, 9⟩, 0, .hold⟩ rig)).messages.faultRequests =
        [(7, .driveFault)] ∧
      (run (.supervisorReplyCheck 7) (checking ⟨7, ⟨false, false, false, 0, 100⟩, 0, .follow⟩ moved)).messages.faultRequests =
        [(7, .lostTracking)] ∧
      (run (.supervisorReplyCheck 7) (checking ⟨7, ⟨true, false, false, 0, 401⟩, 0, .follow⟩ moved)).messages.faultRequests =
        [(7, .loadHigh)] ∧
      (run (.supervisorReplyCheck 7) (checking ⟨7, ⟨true, false, false, 0, 9⟩, 0, .follow⟩ moved)).messages.faultRequests =
        [(7, .loadLow)] ∧
      ((run (.supervisorReplyCheck 7) (checking ⟨7, ⟨true, false, false, 0, 9⟩, 0, .hold⟩ rig)).axis 7).loadWarning =
        true := by decide +kernel

theorem witness_lines_and_latch :
    (run (.rawLevelChange .stopn false) ready).lines.get (lineIndex .stopn) = ⟨false, true, true⟩ ∧
      (run (.rawLevelChange (.enable 2) false) ready).lines.get (lineIndex (.enable 2)) = ⟨false, true, true⟩ ∧
      (run (.rawLevelChange (.hold 3) true) ready).lines.get (lineIndex (.hold 3)) = ⟨true, false, true⟩ ∧
      (ready.lines.get (lineIndex (.hold 0))).timing = false ∧ ready.latch = false ∧ State.reset.latch = true ∧
      (run (.rawLevelChange (.enable 0) true) State.reset).lines.get (lineIndex (.enable 0)) = ⟨true, false, true⟩ ∧
      Taken ready 0 (.eStop 0 1) ∧ Taken ready 0 (.clearEStop 0 1) ∧ ready.qualified .stopn = true ∧
      (run (.qualifiedChange .stopn) (run (.rawLevelChange .stopn false) ready)).qualified .stopn = false := by
  decide +kernel

def rounding (n : Nat) : State := { rig with link := ⟨some n, none, []⟩ }

theorem witness_round :
    (rounding 32).link.round = some 32 ∧ (rounding 32).link.slot = none ∧
      (∀ a : AxisId, 32 ≤ a.val → (rig.axis a).config = none) ∧ (rig.axis 31).config ≠ none ∧
      (∀ b : AxisId, 10 ≤ b.val → b < 31 → (rig.axis b).config = none) ∧ (rig.station 31).isSome = true ∧
      rig.link.round = none ∧ listening.link.slot ≠ none ∧ (rig.station 7).map (·.state) = some .online ∧
      (rig.station 7).map (·.frame.isSome) = some true := by decide +kernel

/-- The rig listening for axis 7 with its entry in a state. -/
def listeningAs (st : StationState) (run joining : Nat) : State :=
  listening.setStation 7 ((listening.station 7).map (fun e =>
    { e with state := st, badRun := run, joining := joining, outage := some 9 }))

theorem witness_failed_reply :
    listening.link.slot = some ⟨7, false⟩ ∧ (listening.station 7).map (·.frame.isSome) = some true ∧
      readStatus ((replyBytes 2 4 0).take 13) = none ∧ (readStatus (replyBytes 2 5 0)).map (·.echo) = some 5 ∧
      ((listeningAs .joining 0 7).station 7).map (·.state) = some .joining ∧
      ((listeningAs .online 1 0).station 7).map (·.badRun) = some 1 ∧
      ((listeningAs .online 2 0).station 7).map (·.badRun) = some 2 ∧
      ((listeningAs .lost 0 0).station 7).map (·.state) = some .lost ∧
      (run (.putAxisRemove 0 1 7) listening).link.slot = some ⟨7, true⟩ ∧
      (run .replyWindowExpiry (run (.putAxisRemove 0 1 7) listening)).link.slot = none := by decide +kernel

theorem witness_good_reply :
    (readStatus ((replyBytes 2 4 131072000).take 14)).map (fun f => (f.address, f.echo, f.reply.feedback)) =
        some (7, 4, 131072000) ∧
      (listening.station 7).map (fun e => e.frame.map (fun f => f.sequence.toNat)) = some (some 4) ∧
      (listening.axis 7).config.isSome = true ∧ (listening.axis 7).state ≠ .unconfigured ∧
      ((run (.statusFrame 500 (replyBytes 2 4 0)) (listeningAs .joining 0 6)).station 7).map (·.state) = some .joining ∧
      ((run (.statusFrame 500 (replyBytes 2 4 0)) (listeningAs .joining 0 7)).station 7).map
        (fun e => (e.state, e.outageRecord, e.lastLatency)) = some (.online, 9, 500) ∧
      ((run (.statusFrame 0 (replyBytes 2 4 999999999)) { listening with latch := true }).axis 7).setpoint =
        some 786432000 := by decide +kernel

theorem witness_reports :
    axisOf 7 = some 7 ∧ Taken rig 0 (.getStation 0 1 7 0) ∧ (1 : Byte).toNat ≤ 1 ∧ (rig.station 7).isSome = true ∧
      axisOf 0 = some 0 ∧ rig.station 0 = none ∧ Taken rig 0 (.getStation 0 1 7 1) ∧ 47 < (48 : Byte).toNat ∧
      Taken rig 1 (.poll 1 1) ∧ Taken rig 1 (.fetch 1 1) ∧ Taken rig 1 (.setFilter 1 1 3) ∧ (3 : Byte).toNat ≤ 3 ∧
      3 < (4 : Byte).toNat ∧ Taken rig 0 (.getStation 0 1 0 2) ∧ 1 < (2 : Byte).toNat := by decide +kernel

theorem witness_receiver :
    (ready.port 0).receiver = .hunt ∧ ((run (.byteReceived 0 0xC5 false) ready).port 0).receiver ≠ .hunt ∧
      ((run (.byteReceived 0 0xC5 false) ready).port 0).receiver = .header [] ∧ 250 < (251 : Byte).toNat ∧
      (250 : Byte).toNat ≤ 250 ∧ (List.replicate 250 (0 : Byte)).length = (250 : Byte).toNat := by decide +kernel

/-- A complete POLL frame waits at CP0, right or with its last byte spoilt. -/
def framed (spoil : Byte) (s : State) : State :=
  s.updPort 0 (fun pt => { pt with complete :=
    [⟨0, 0x50, 7, [], (crc16 [0, 0x50, 7]).extractLsb' 8 8, (crc16 [0, 0x50, 7]).extractLsb' 0 8 ^^^ spoil⟩] })

theorem witness_admission :
    ((framed 0 ready).port 0).complete.map (·.checks) = [true] ∧
      ((framed 1 ready).port 0).complete.map (·.checks) = [false] ∧
      ((framed 0 ready).port 0).transmit.length < 3 ∧
      3 ≤ ((ready.updPort 0 (fun pt => { pt with transmit := List.replicate 3 ⟨0, 0, .ok, []⟩ })).port 0).transmit.length ∧
      State.reset.loader.state = .loading ∧
      ((ready.updPort 0 (fun pt => { pt with inProgress := some (.poll 0 1) })).port 0).inProgress ≠ none ∧
      parseRequest 0 0x50 7 [] = .request (.poll 0 7) ∧ (Instr.poll 0 7).request = some (0, 7, 0x50) := by
  decide +kernel

def postedState (n filter : Nat) : State :=
  ({ ready with ports := ready.ports.map (fun pt =>
      { pt with filter := filter, events := List.replicate n ⟨.estopCleared 0, 0⟩ }) } : State).emit (.saveDone 0)

theorem witness_offering :
    ((ready.updPort 0 (fun pt => { pt with transmit := [⟨0x50, 7, .ok, []⟩] })).port 0).transmit =
        [⟨0x50, 7, .ok, []⟩] ∧
      (postedState 31 3).messages.posted = [⟨.saveDone 0, 0⟩] ∧
      (EventBody.saveDone 0).cls ≤ ((postedState 31 3).port 0).filter ∧ ((postedState 31 3).port 0).events.length < 32 ∧
      32 ≤ ((postedState 32 3).port 0).events.length ∧ ((postedState 0 2).port 0).filter < (EventBody.saveDone 0).cls := by
  decide +kernel

theorem witness_master_clear :
    Taken rig 0 (.masterClear 0 1) ∧ rig.loader.save = none ∧
      (∀ l : LaneId, (rig.lane l).state ∈ [LaneState.idle, .ready, .held, .follow]) ∧
      Taken moved 0 (.masterClear 0 1) ∧ (moved.lane 4).state ∈ [LaneState.planning, .releasing, .running, .stopping] := by
  decide +kernel

/-- Lane 4 READY again with its withdrawal, and an event, not yet taken. -/
def withdrawn : State := (run (.halt 2 9 4) planning).emit (.estopSet none)

theorem witness_master_clear_finds_withdrawals :
    Taken withdrawn 0 (.masterClear 0 1) ∧ withdrawn.loader.save = none ∧
      (∀ l : LaneId, (withdrawn.lane l).state ∈ [LaneState.idle, .ready, .held, .follow]) ∧
      withdrawn.planner.withdrawals = [4] ∧ withdrawn.planner.inProgress.map (·.withdrawn) = some false ∧
      withdrawn.messages.posted.length = 1 ∧
      (run (.masterClear 0 1) withdrawn).planner.inProgress.map (·.withdrawn) = some true ∧
      (run (.masterClear 0 1) withdrawn).planner.queue = [] ∧
      (run (.masterClear 0 1) withdrawn).messages.posted = [] ∧
      (run .eventPosted (run (.masterClear 0 1) withdrawn)).ports.cells.map (fun pt => pt.attention) =
        [false, false, false] := by decide +kernel

theorem witness_stops_reach_lanes : StopsReachLanes moved := by
  unfold StopsReachLanes
  decide +kernel

theorem witness_claims_agree : ClaimsAgree moved := by
  unfold ClaimsAgree
  decide +kernel

theorem witness_records_agree : RecordsAgree moved := by
  unfold RecordsAgree
  decide +kernel

theorem witness_planner_sound : PlannerSound planning ∧ PlannerSound moved := by
  have h : ∀ s : State, s.planner.queue = [] →
      (∀ j, s.planner.inProgress = some j → (s.lane j.lane).state = .planning ∧ (s.lane j.lane).planResult = none) →
      PlannerSound s := by
    intro s hq hj
    refine ⟨by simp [hq], by simp [hq], by simp [hq], fun j h1 _ => ⟨.inl (hj j h1).1, by simp [hq], fun _ => (hj j h1).2⟩⟩
  refine ⟨h _ (by decide +kernel) ?_, h _ (by decide +kernel) ?_⟩
  · have h : (planning.planner.inProgress.map (fun j =>
        decide ((planning.lane j.lane).state = .planning) && decide ((planning.lane j.lane).planResult = none))) =
        some true := by decide +kernel
    intro j hj
    rw [hj] at h
    simpa using h
  · have h : moved.planner.inProgress = none := by decide +kernel
    simp [h]

theorem witness_planner_sound_withdrawn : PlannerSound withdrawn := by
  have hq : withdrawn.planner.queue = [] := by decide +kernel
  have hl : withdrawn.planner.inProgress.map (·.lane) = some 4 := by decide +kernel
  have hw : (4 : LaneId) ∈ withdrawn.planner.withdrawals ∧ (withdrawn.lane 4).state ≠ .planning := by decide +kernel
  refine ⟨by simp [hq], by simp [hq], by simp [hq], fun j hj _ => ?_⟩
  have h4 : j.lane = 4 := by simpa [hj] using hl
  rw [h4]
  exact ⟨.inr hw.1, by simp [hq], fun h => absurd h hw.2⟩

theorem witness_setpoints_inside : SetpointsInside moved := by
  have axes : ∀ a : AxisId, (match (moved.axis a).config with
      | none => true
      | some c => decide (c.low < c.high) && (match (moved.axis a).setpoint with
        | none => true
        | some v => decide (c.low * 65536 ≤ v) && decide (v ≤ c.high * 65536))) = true := by decide +kernel
  have lanes : ∀ l : LaneId, (moved.lane l).state ≠ .planning ∧
      (match (moved.lane l).plan with
      | none => true
      | some p => p.members.all (fun m => decide ((moved.axis m.axis).owner = some l) &&
          (match (moved.axis m.axis).config with
          | none => true
          | some c => decide (c.low * 65536 ≤ m.start) && decide (m.start ≤ c.high * 65536) &&
              (decide (m.direction ≠ .up) || decide (m.start + m.distance ≤ c.high * 65536)) &&
              (decide (m.direction ≠ .down) || decide (c.low * 65536 + m.distance ≤ m.start)) &&
              (decide (m.distance = 0) ||
                decide (2 * p.ramp ≤ m.span) && decide (m.cruise * (m.span - p.ramp) ≤ m.distance))))) = true := by
    decide +kernel
  refine ⟨?_, ?_, ?_, ?_, ?_, ?_⟩
  · intro a c hc
    have h := axes a
    rw [hc] at h
    simp only [Bool.and_eq_true, decide_eq_true_eq] at h
    refine ⟨h.1, fun v hv => ?_⟩
    have h2 := h.2
    rw [hv] at h2
    simpa [insideLimits] using h2
  · intro l p _ hp m hm
    have h := (lanes l).2
    rw [hp] at h
    have h2 := List.all_eq_true.1 h m hm
    simp only [Bool.and_eq_true, decide_eq_true_eq] at h2
    refine ⟨h2.1, fun c hc => ?_⟩
    have h3 := h2.2
    rw [hc] at h3
    simp only [Bool.and_eq_true, Bool.or_eq_true, decide_eq_true_eq] at h3
    exact ⟨h3.1.1.1, fun e => h3.1.1.2.resolve_left (fun n => n e), fun e => h3.1.2.resolve_left (fun n => n e),
      fun e => h3.2.resolve_left e⟩
  · exact fun l p h => absurd h (lanes l).1
  · exact fun j _ _ h => absurd h (lanes j.lane).1
  · exact fun l st h => absurd h (lanes l).1
  · intro h
    exact absurd h (by decide +kernel)

theorem witness_ports_and_memory : PortsBounded moved ∧ Memory.wf moved.memory = true := by
  unfold PortsBounded
  decide +kernel

theorem witness_store : StoreLawful State.reset := by
  refine ⟨fun n st h => ?_, fun n st h => ?_, by decide +kernel⟩
  · rw [show State.reset.cues.slots = Table.fill 512 none from rfl, Table.get_fill] at h
    simp at h
  · rw [show State.reset.cues.privates = Table.fill 8 none from rfl, Table.get_fill] at h
    simp at h

end Sys2Proof.Tests
end

namespace Sys2Proof.Machine

/-! ### What a change leaves alone -/

variable {s t u : State} {l k : LaneId} {a b : AxisId}

/-- The part of an axis record that Table 1-2 ties together stands as it was: configuration and setpoint are the same, the
previous setpoint is present or absent as before, and the state has not crossed between UNCONFIGURED, OFFLINE and the rest. -/
structure AxisKept (x y : Axis) : Prop where
  config : y.config = x.config
  setpoint : y.setpoint = x.setpoint
  previous : y.previous = none ↔ x.previous = none
  unconfigured : y.state = .unconfigured ↔ x.state = .unconfigured
  offline : y.state = .offline ↔ x.state = .offline

theorem AxisKept.refl (x : Axis) : AxisKept x x := ⟨rfl, rfl, .rfl, .rfl, .rfl⟩

theorem AxisKept.trans {x y z : Axis} (h : AxisKept x y) (h' : AxisKept y z) : AxisKept x z :=
  ⟨h'.config.trans h.config, h'.setpoint.trans h.setpoint, h'.previous.trans h.previous,
    h'.unconfigured.trans h.unconfigured, h'.offline.trans h.offline⟩

/-- No port gains a request in progress. -/
def NoNewRequest (s t : State) : Prop := ∀ p, (s.port p).inProgress = none → (t.port p).inProgress = none

/-- Every axis record and station entry is kept as far as RecordsAgree reads it, and no load begins or gains a request. -/
structure RecordsKept (s t : State) : Prop where
  axis : ∀ a, AxisKept (s.axis a) (t.axis a)
  station : ∀ a, t.station a = none ↔ s.station a = none
  loading : t.loader.state = .loading → s.loader.state = .loading ∧ NoNewRequest s t

theorem RecordsKept.trans (h : RecordsKept s t) (h' : RecordsKept t u) : RecordsKept s u where
  axis a := (h.axis a).trans (h'.axis a)
  station a := (h'.station a).trans (h.station a)
  loading hu := by
    obtain ⟨ht, hp'⟩ := h'.loading hu
    obtain ⟨hs, hp⟩ := h.loading ht
    exact ⟨hs, fun p e => hp' p (hp p e)⟩

/-- A lane keeps the axes it owns, with their configurations. -/
def OwnedKept (k : LaneId) (s t : State) : Prop :=
  ∀ a, (s.axis a).owner = some k → (t.axis a).owner = some k ∧ (t.axis a).config = (s.axis a).config

theorem OwnedKept.trans (h : OwnedKept k s t) (h' : OwnedKept k t u) : OwnedKept k s u := fun a e => by
  obtain ⟨ho, hc⟩ := h a e
  obtain ⟨ho', hc'⟩ := h' a ho
  exact ⟨ho', hc'.trans hc⟩

/-- What SetpointsInside reads of one lane stands as it was: its state, plan record and result, in PLANNING its current step,
the axes it owns with their configurations; and the Planner works on no plan for it that is new. -/
structure LaneKept (k : LaneId) (s t : State) : Prop where
  state : (t.lane k).state = (s.lane k).state
  plan : (t.lane k).plan = (s.lane k).plan
  result : (t.lane k).planResult = (s.lane k).planResult
  step : (s.lane k).state = .planning → currentStep t k = currentStep s k
  owned : OwnedKept k s t
  job : ∀ j, t.planner.inProgress = some j → j.withdrawn = false → j.lane = k → s.planner.inProgress = some j

theorem LaneKept.trans (h : LaneKept k s t) (h' : LaneKept k t u) : LaneKept k s u where
  state := h'.state.trans h.state
  plan := h'.plan.trans h.plan
  result := h'.result.trans h.result
  step e := (h'.step (h.state.trans e)).trans (h.step e)
  owned := h.owned.trans h'.owned
  job j e hw hl := h.job j (h'.job j e hw hl) hw hl

/-- A change of lane `l`'s own affairs: the axis records are kept, and every other lane. -/
structure CalmBut (l : LaneId) (s t : State) : Prop where
  records : RecordsKept s t
  others : ∀ k, k ≠ l → LaneKept k s t

theorem CalmBut.trans (h : CalmBut l s t) (h' : CalmBut l t u) : CalmBut l s u :=
  ⟨h.records.trans h'.records, fun k hk => (h.others k hk).trans (h'.others k hk)⟩

/-- A change that keeps the axis records and every lane. -/
structure Calm (s t : State) : Prop where
  records : RecordsKept s t
  lanes : ∀ k, LaneKept k s t

theorem Calm.trans (h : Calm s t) (h' : Calm t u) : Calm s u :=
  ⟨h.records.trans h'.records, fun k => (h.lanes k).trans (h'.lanes k)⟩

theorem Calm.but (h : Calm s t) : CalmBut l s t := ⟨h.records, fun k _ => h.lanes k⟩

/-- Two lane records that SetpointsInside cannot tell apart. -/
def SameWork (x y : Lane) : Prop :=
  y.state = x.state ∧ y.plan = x.plan ∧ y.planResult = x.planResult ∧ y.current = x.current

/-- The tables outside the lanes that the laws read are the same. -/
def SameTables (s t : State) : Prop :=
  t.axes = s.axes ∧ t.stations = s.stations ∧ t.loader.state = s.loader.state ∧
    (s.loader.state = .loading → NoNewRequest s t) ∧
    t.planner.inProgress = s.planner.inProgress ∧ t.cues = s.cues

theorem currentStep_congr (hc : t.cues = s.cues) (hl : (t.lane k).current = (s.lane k).current) :
    currentStep t k = currentStep s k := by
  simp only [currentStep, hl, hc]

theorem SameTables.records (h : SameTables s t) : RecordsKept s t := by
  obtain ⟨ha, hst, hl, hp, -, -⟩ := h
  refine ⟨fun a => ?_, fun a => ?_, fun e => ⟨hl ▸ e, hp (hl ▸ e)⟩⟩
  · rw [show t.axis a = s.axis a by rw [State.axis, ha]; rfl]
    exact .refl _
  · rw [show t.station a = s.station a by rw [State.station, hst]; rfl]

theorem SameTables.lane (h : SameTables s t) (hw : SameWork (s.lane k) (t.lane k)) : LaneKept k s t := by
  obtain ⟨ha, -, -, -, hj, hc⟩ := h
  obtain ⟨h1, h2, h3, h4⟩ := hw
  refine ⟨h1, h2, h3, fun _ => currentStep_congr hc h4, fun a e => ?_, fun j e _ _ => hj ▸ e⟩
  rw [show t.axis a = s.axis a by rw [State.axis, ha]; rfl]
  exact ⟨e, rfl⟩

theorem SameTables.calm (h : SameTables s t) (hw : ∀ k, SameWork (s.lane k) (t.lane k)) : Calm s t :=
  ⟨h.records, fun k => h.lane (hw k)⟩

theorem SameTables.calmBut (h : SameTables s t) (hw : ∀ k, k ≠ l → t.lane k = s.lane k) : CalmBut l s t :=
  ⟨h.records, fun k hk => h.lane (by rw [hw k hk]; exact ⟨rfl, rfl, rfl, rfl⟩)⟩

/-- A change that leaves the lanes and those tables. -/
theorem SameTables.calm_of_lanes (h : SameTables s t) (hl : t.lanes = s.lanes) : Calm s t :=
  h.calm (fun k => by rw [show t.lane k = s.lane k by rw [State.lane, hl]; rfl]; exact ⟨rfl, rfl, rfl, rfl⟩)

theorem Calm.refl (s : State) : Calm s s :=
  SameTables.calm_of_lanes ⟨rfl, rfl, rfl, fun _ _ e => e, rfl, rfl⟩ rfl

/-! ### Lane operations -/

theorem calm_emit (e : EventBody) : Calm s (s.emit e) :=
  SameTables.calm_of_lanes ⟨rfl, rfl, rfl, fun _ _ e => e, rfl, rfl⟩ rfl

theorem calm_updMessages (f : Messages → Messages) : Calm s (s.updMessages f) :=
  SameTables.calm_of_lanes ⟨rfl, rfl, rfl, fun _ _ e => e, rfl, rfl⟩ rfl

theorem calm_setContext (c : Option MotionContext) : Calm s (s.setContext l c) :=
  SameTables.calm_of_lanes ⟨rfl, rfl, rfl, fun _ _ e => e, rfl, rfl⟩ rfl

theorem calm_setStop (r : Option StopRecord) : Calm s (s.setStop a r) :=
  SameTables.calm_of_lanes ⟨rfl, rfl, rfl, fun _ _ e => e, rfl, rfl⟩ rfl

theorem calmBut_updLane (f : Lane → Lane) : CalmBut l s (s.updLane l f) :=
  SameTables.calmBut ⟨rfl, rfl, rfl, fun _ _ e => e, rfl, rfl⟩
    (fun k hk => by rw [lane_updLane, if_neg hk.symm])

/-- A lane's record changed in nothing that SetpointsInside reads. -/
theorem calm_updLane (f : Lane → Lane) (hf : ∀ ln, SameWork ln (f ln)) : Calm s (s.updLane l f) := by
  refine SameTables.calm ⟨rfl, rfl, rfl, fun _ _ e => e, rfl, rfl⟩ (fun k => ?_)
  rw [lane_updLane]
  split
  · next e => subst e; exact hf _
  · exact ⟨rfl, rfl, rfl, rfl⟩

theorem calm_deliver (m : LaneMessage) : Calm s (s.deliver l m) :=
  calm_updLane _ (fun _ => ⟨rfl, rfl, rfl, rfl⟩)

theorem calm_deliverAll (m : LaneMessage) : Calm s (s.deliverAll m) :=
  SameTables.calm ⟨rfl, rfl, rfl, fun _ _ e => e, rfl, rfl⟩ (fun _ => by rw [lane_deliverAll]; exact ⟨rfl, rfl, rfl, rfl⟩)

theorem calmBut_changeState (st : LaneState) : CalmBut l s (changeState l st s) := by
  unfold changeState
  dsimp only
  split
  · exact (Calm.refl s).but
  · exact (calmBut_updLane _).trans (calm_emit _).but

@[simp] theorem changeState_state (st : LaneState) : ((changeState l st s).lane l).state = st := by
  unfold changeState
  dsimp only
  split
  · assumption
  · simp

@[simp] theorem changeState_planner (st : LaneState) : (changeState l st s).planner = s.planner := by
  unfold changeState; dsimp only; split <;> rfl

@[simp] theorem changeState_axis (st : LaneState) (a : AxisId) : (changeState l st s).axis a = s.axis a := by
  unfold changeState; dsimp only; split <;> rfl

@[simp] theorem changeState_cues (st : LaneState) : (changeState l st s).cues = s.cues := by
  unfold changeState; dsimp only; split <;> rfl

/-- A change of state leaves the rest of the lane's record. -/
theorem changeState_lane (st : LaneState) : (changeState l st s).lane l = { s.lane l with state := st } := by
  unfold changeState
  dsimp only
  split
  · next e => rw [← e]
  · simp

theorem calmBut_dropContext : CalmBut l s (dropContext l s) :=
  (calmBut_updLane _).trans (calm_setContext _).but

theorem calm_askWithdrawal : Calm s (askWithdrawal l s) :=
  SameTables.calm_of_lanes ⟨rfl, rfl, rfl, fun _ _ e => e, rfl, rfl⟩ rfl

theorem calmBut_endFollow : CalmBut l s (endFollow l s) :=
  (calmBut_updLane _).trans (calmBut_changeState _)

theorem calmBut_endTest : CalmBut l s (endTest l s) := by
  unfold endTest
  split
  · exact ((calmBut_updLane _).trans calmBut_dropContext).trans (calmBut_changeState _)
  · exact (Calm.refl s).but

theorem calmBut_enterRunning : CalmBut l s (enterRunning l s) :=
  (calmBut_updLane _).trans (calmBut_changeState _)

/-! ### Axis operations of a lane -/

/-- The axes changed record by record, each kept with its owner. -/
theorem calm_axes (axes : Table 48 Axis)
    (h : ∀ a, AxisKept (s.axis a) (axes.get a) ∧ (axes.get a).owner = (s.axis a).owner) :
    Calm s { s with axes := axes } where
  records := ⟨fun a => (h a).1, fun _ => .rfl, fun e => ⟨e, fun _ e => e⟩⟩
  lanes _ := ⟨rfl, rfl, rfl, fun _ => rfl, fun a e => ⟨(h a).2.trans e, (h a).1.config⟩, fun _ e _ _ => e⟩

theorem AxisKept.of_state {x y : Axis} (hy : y = { x with state := y.state, arriving := y.arriving })
    (hx : x.state ≠ .unconfigured ∧ x.state ≠ .offline) (hs : y.state ≠ .unconfigured ∧ y.state ≠ .offline) :
    AxisKept x y ∧ y.owner = x.owner := by
  rw [hy]
  exact ⟨⟨rfl, rfl, .rfl, by simp [hx.1, hs.1], by simp [hx.2, hs.2]⟩, rfl⟩

/-- A single axis goes between two states that have a setpoint. -/
theorem calm_setAxisState (st : AxisState) (hx : (s.axis a).state ≠ .unconfigured ∧ (s.axis a).state ≠ .offline)
    (hs : st ≠ .unconfigured ∧ st ≠ .offline) : Calm s (setAxisState a st s) := by
  refine calm_axes _ (fun b => ?_)
  show AxisKept _ ((setAxisState a st s).axis b) ∧ ((setAxisState a st s).axis b).owner = _
  rw [axis_setAxisState]
  split
  · next e => subst e; exact AxisKept.of_state rfl hx hs
  · exact ⟨.refl _, rfl⟩

theorem calm_settleArrivals : Calm s (settleArrivals l s) := by
  refine calm_axes _ (fun b => ?_)
  rw [Table.get_mapIdx]
  split
  · next h => exact AxisKept.of_state rfl (by rw [State.axis, h.2.1]; simp) (by simp)
  · exact ⟨.refl _, rfl⟩

theorem calm_restMembers : Calm s (restMembers l s) := by
  refine calm_axes _ (fun b => ?_)
  rw [Table.get_mapIdx]
  split
  · next h => exact AxisKept.of_state rfl (by rw [State.axis, h.2]; simp) (by simp)
  · exact ⟨.refl _, rfl⟩

theorem calm_brakeMembers : Calm s (brakeMembers l s) := by
  refine (calm_axes (s.axes.mapIdx _) (fun b => ?_)).trans
    (SameTables.calm_of_lanes ⟨rfl, rfl, rfl, fun _ _ e => e, rfl, rfl⟩ rfl)
  rw [Table.get_mapIdx]
  split
  · next h =>
    have hs := (travelling_iff _).1 h.2
    exact AxisKept.of_state rfl (by rw [State.axis]; rcases hs with hs | hs <;> simp [hs]) (by simp)
  · exact ⟨.refl _, rfl⟩

theorem calm_haltMember : Calm s (haltMember l s a) := by
  unfold haltMember
  dsimp only
  split
  · next h =>
    have hx : (s.axis a).state ≠ .unconfigured ∧ (s.axis a).state ≠ .offline := by simp [h]
    split
    · exact (calm_setAxisState _ hx (by simp)).trans (calm_setStop _)
    · exact calm_setAxisState _ hx (by simp)
  · exact .refl s

/-- A list of calm changes is calm. -/
theorem calm_foldl {α : Type} (f : State → α → State) (hf : ∀ s x, Calm s (f s x)) (xs : List α) (s : State) :
    Calm s (xs.foldl f s) := by
  induction xs generalizing s with
  | nil => exact .refl s
  | cons x rest ih => exact (hf s x).trans (ih _)

theorem calm_applyFault (cause : FaultCause) : Calm s (applyFault a cause s) := by
  by_cases h : (s.axis a).state ∈ [AxisState.rest, .moving, .stopping]
  · have hx : (s.axis a).state ≠ .unconfigured ∧ (s.axis a).state ≠ .offline := by
      constructor <;> intro e <;> simp [e] at h
    rw [applyFault_fit s a cause h]
    refine (calm_setAxisState (.faulted cause) hx (by simp)).trans
      (SameTables.calm ⟨rfl, rfl, rfl, fun _ _ e => e, rfl, rfl⟩ (fun k => ?_))
    simp only [emitAll, State.lane, State.updMessages_lanes, Table.get_mapIdx]
    split <;> exact ⟨rfl, rfl, rfl, rfl⟩
  · rw [applyFault_unfit s a cause h]
    exact .refl s

/-- A lane that gives its axes back takes none from another. -/
theorem calmBut_release : CalmBut l s (release l s) where
  records := by
    refine ⟨fun a => ?_, fun _ => .rfl, fun e => ⟨e, fun _ e => e⟩⟩
    show AxisKept _ ((disowned l s.axes).get a)
    rw [disowned_get]
    exact ⟨rfl, rfl, .rfl, .rfl, .rfl⟩
  others k hk := by
    have hl : (release l s).lane k = s.lane k := Table.get_modify_of_ne _ _ hk.symm
    refine ⟨by rw [hl], by rw [hl], by rw [hl], fun _ => currentStep_congr rfl (by rw [hl]), fun a e => ?_, fun _ e _ _ => e⟩
    show ((disowned l s.axes).get a).owner = _ ∧ ((disowned l s.axes).get a).config = _
    rw [disowned_get]
    have : (s.axes.get a).owner = some k := e
    simp [this, hk, State.axis]

/-- A granted claim takes no axis from another lane (Table 2-3). -/
theorem calmBut_grant {as : List AxisId} (h : ∀ b ∈ as, claimTest s l b = none) : CalmBut l s (grant l as s) where
  records := by
    refine ⟨fun a => ?_, fun _ => .rfl, fun e => ⟨e, fun _ e => e⟩⟩
    rw [grant_axis]
    exact ⟨rfl, rfl, .rfl, .rfl, .rfl⟩
  others k hk := by
    have hl : (grant l as s).lane k = s.lane k := Table.get_modify_of_ne _ _ hk.symm
    refine ⟨by rw [hl], by rw [hl], by rw [hl], fun _ => currentStep_congr rfl (by rw [hl]), fun a e => ?_, fun _ e _ _ => e⟩
    rw [grant_axis]
    have hn : a ∉ as := by
      intro ha
      have := h a ha
      unfold claimTest at this
      simp only [e, Option.some.injEq, hk, if_false] at this
      split at this
      · cases this
      · cases this
      · cases this
      · split at this <;> cases this
    simp [hn, e, hk]

end Sys2Proof.Machine

namespace Sys2Proof.Machine

variable {s t u : State} {l k : LaneId} {a b : AxisId}

/-! ### Where a lane's change leads -/

/-- The lane's own change ends with the lane outside the motion states. -/
structure LaneRests (l : LaneId) (s t : State) : Prop where
  calm : CalmBut l s t
  rests : (t.lane l).state.motion = false

/-- The lane enters PLANNING: it owns the axes of its step, has no result to take, any plan in progress for it is an old one
with no withdrawal outstanding, and the Planner then serves its queue. -/
def LanePlans (l : LaneId) (s t : State) : Prop :=
  ∃ u, t = startService u ∧ CalmBut l s u ∧ (u.lane l).state = .planning ∧ (u.lane l).planResult = none ∧
    (∀ st, currentStep u l = some st → ∀ m ∈ st.moves, (u.axis m.axis).owner = some l) ∧
    ∀ j, u.planner.inProgress = some j → j.withdrawn = false → j.lane = l →
      s.planner.inProgress = some j ∧ l ∉ s.planner.withdrawals

/-- The lane comes to rest or enters PLANNING. -/
def LaneTurns (l : LaneId) (s t : State) : Prop := LaneRests l s t ∨ LanePlans l s t

/-- What a change of one lane leads to: nothing that the laws read, or a lane that comes to rest, or a lane that was not in
PLANNING and turns. -/
inductive LaneServes (l : LaneId) (s t : State) : Prop where
  | calm (h : Calm s t)
  | rests (h : LaneRests l s t)
  | turns (hs : (s.lane l).state ≠ .planning) (h : LaneTurns l s t)

/-- A step of a lane's own does nothing that the laws read to an IDLE lane. -/
def LaneActs (l : LaneId) (s t : State) : Prop :=
  Calm s t ∨ ((s.lane l).state ≠ .idle ∧ LaneServes l s t)

theorem LaneActs.serves (h : LaneActs l s t) : LaneServes l s t := h.elim .calm (·.2)

theorem LaneRests.after (h : CalmBut l s t) (h' : LaneRests l t u) : LaneRests l s u :=
  ⟨h.trans h'.calm, h'.rests⟩

theorem LanePlans.after (h : CalmBut l s t) (hp : t.planner = s.planner) (h' : LanePlans l t u) : LanePlans l s u := by
  obtain ⟨v, e, hc, hs, hr, ho, hj⟩ := h'
  exact ⟨v, e, h.trans hc, hs, hr, ho, hp ▸ hj⟩

theorem LaneTurns.after (h : CalmBut l s t) (hp : t.planner = s.planner) (h' : LaneTurns l t u) : LaneTurns l s u :=
  h'.imp (.after h) (.after h hp)

theorem LaneActs.after (h : Calm s t) (hp : t.planner = s.planner) (h' : LaneActs l t u) : LaneActs l s u := by
  obtain h' | ⟨hi, h'⟩ := h'
  · exact .inl (h.trans h')
  · refine .inr ⟨(h.lanes l).state ▸ hi, ?_⟩
    cases h' with
    | calm h' => exact .calm (h.trans h')
    | rests h' => exact .rests (h'.after h.but)
    | turns hs h' => exact .turns ((h.lanes l).state ▸ hs) (h'.after h.but hp)

/-- A change of state out of the motion states ends a lane's change. -/
theorem laneRests_changeState {st : LaneState} (h : CalmBut l s t) (hs : st.motion = false) :
    LaneRests l s (changeState l st t) :=
  ⟨h.trans (calmBut_changeState st), by simpa using hs⟩

theorem laneRests_endFollow : LaneRests l s (endFollow l s) :=
  laneRests_changeState (calmBut_updLane _) rfl

/-- A lane that has come to rest may still post an event. -/
theorem LaneRests.then (h : LaneRests l s t) (h' : Calm t u) : LaneRests l s u :=
  ⟨h.calm.trans h'.but, by rw [(h'.lanes l).state]; exact h.rests⟩

/-! ### The Planner's queue -/

/-- Service leaves the state as it is or begins the plan of the lane at the head of the queue (R84). -/
theorem startService_cases (s : State) : startService s = s ∨ ∃ l queue,
    startService s = { s with planner := { s.planner with queue := queue, inProgress := some (snapshot s l) } } := by
  unfold startService
  split
  · exact .inr ⟨_, _, rfl⟩
  · exact .inl rfl

theorem records_startService (s : State) : RecordsKept s (startService s) := by
  obtain e | ⟨l, queue, e⟩ := startService_cases s
  · rw [e]; exact (Calm.refl s).records
  · rw [e]; exact ⟨fun _ => .refl _, fun _ => .rfl, fun e => ⟨e, fun _ e => e⟩⟩

/-- A withdrawal leaves no plan in progress for its lane, but one marked withdrawn (R86). -/
theorem withdraw_job {pl : Planner} {j : PlanJob} (h : (withdraw l pl).inProgress = some j) (hw : j.withdrawn = false) :
    pl.inProgress = some j ∧ j.lane ≠ l := by
  simp only [withdraw, Option.map_eq_some_iff] at h
  obtain ⟨i, hi, h⟩ := h
  split at h
  · subst h; cases hw
  · next hne => subst h; exact ⟨hi, hne⟩

/-- A lane joins the queue: service follows, and a plan in progress that still stands is an old one, of another lane where a
withdrawal was outstanding (R83, log entry 14). -/
theorem joinQueue_cases (l : LaneId) (s : State) : ∃ pl,
    joinQueue l s = startService { s with planner := pl } ∧
      ∀ j, pl.inProgress = some j → j.withdrawn = false →
        s.planner.inProgress = some j ∧ (j.lane = l → l ∉ s.planner.withdrawals) := by
  refine ⟨_, rfl, fun j hj hw => ?_⟩
  dsimp only at hj
  split at hj
  · obtain ⟨hj, hne⟩ := withdraw_job hj hw
    exact ⟨hj, fun e => absurd e hne⟩
  · next hn => exact ⟨hj, fun _ => hn⟩

/-! ### GO and the automatic GO (R61 to R63) -/

/-- The checks of a GO pass with the claim of the current step's axes granted. -/
theorem goChecks_ok {c : Option Console} (h : goChecks l c s = .ok t) : ∃ st, currentStep s l = some st ∧
    t = grant l (st.moves.map (·.axis)) s ∧ ∀ b ∈ st.moves.map (·.axis), claimTest s l b = none := by
  unfold goChecks at h
  cases hst : currentStep s l with
  | none => split_ifs at h; simp [hst] at h
  | some st =>
    split_ifs at h
    simp only [hst] at h
    exact ⟨st, rfl, claim_ok s l h⟩

/-- A GO that passes its checks takes the lane into PLANNING. -/
theorem lanePlans_enterPlanning {c : Option Console} (resume : Bool) (h : goChecks l c s = .ok t) :
    LanePlans l s (enterPlanning l resume t) := by
  obtain ⟨st, hst, rfl, hclaim⟩ := goChecks_ok h
  set as := st.moves.map (·.axis) with has
  set v := changeState l .planning ((grant l as s).updLane l (fun ln =>
    { ln with resume := resume, haltCause := .none, plan := none, planResult := none, followDue := false
              decrements := 0 })) with hv
  have hcalm : CalmBut l s v := (calmBut_grant hclaim).trans ((calmBut_updLane _).trans (calmBut_changeState _))
  have hplanner : v.planner = s.planner := by rw [hv, changeState_planner]; rfl
  obtain ⟨pl, hjoin, hjob⟩ := joinQueue_cases l v
  rw [hplanner] at hjob
  refine ⟨{ v with planner := pl }, hjoin, hcalm.trans ⟨⟨fun _ => .refl _, fun _ => .rfl, fun e => ⟨e, fun _ e => e⟩⟩,
    fun k _ => ⟨rfl, rfl, rfl, fun _ => rfl, fun _ e => ⟨e, rfl⟩, fun j e hw _ => hplanner ▸ (hjob j e hw).1⟩⟩,
    changeState_state _, ?_, ?_, fun j e hw hl => ⟨(hjob j e hw).1, (hjob j e hw).2 hl⟩⟩
  · show (v.lane l).planResult = none
    rw [hv, changeState_lane]
    simp
  · intro st' hst' m hm
    have hcur : currentStep { v with planner := pl } l = currentStep s l := by
      refine currentStep_congr (by simp only [hv, changeState_cues]; rfl) ?_
      show (v.lane l).current = _
      rw [hv, changeState_lane]
      simp [grant, State.lane]
    have : st' = st := Option.some.inj (hst'.symm.trans (hcur.trans hst))
    subst this
    show (v.axis m.axis).owner = some l
    rw [hv, changeState_axis, State.updLane_get_axis, grant_axis]
    simp [has, List.mem_map_of_mem hm]

theorem laneTurns_automaticGo (l : LaneId) (s : State) : LaneTurns l s (automaticGo l s) := by
  unfold automaticGo
  split
  · next h => exact .inr (lanePlans_enterPlanning false h)
  · exact .inl (laneRests_endFollow.then (calm_emit _))

theorem laneActs_followCount (l : LaneId) (s : State) : LaneActs l s (followCount l s) := by
  unfold followCount
  dsimp only
  split
  · next h =>
    have hc : Calm s (s.updLane l (fun x => { x with followCounter := x.followCounter - 1, followDue := false })) :=
      calm_updLane _ (fun _ => ⟨rfl, rfl, rfl, rfl⟩)
    split
    · exact .inr ⟨by simp [h.1], .turns (by simp [h.1]) ((laneTurns_automaticGo l _).after hc.but rfl)⟩
    · exact .inl hc
  · exact .inl (.refl s)

theorem laneActs_linkedCount (l : LaneId) (s : State) : LaneActs l s (linkedCount l s) := by
  unfold linkedCount
  dsimp only
  split
  · next h =>
    have hc : Calm s (s.updLane l (fun x =>
        { x with followCounter := x.followCounter - 1, decrements := x.decrements - 1 })) :=
      calm_updLane _ (fun _ => ⟨rfl, rfl, rfl, rfl⟩)
    split
    · exact .inr ⟨by simp [h.1], .turns (by simp [h.1]) ((laneTurns_automaticGo l _).after hc.but rfl)⟩
    · exact .inl hc
  · exact .inl (.refl s)

/-! ### Halts (Table 7-2) -/

theorem calmBut_recordHalt (cause : HaltCause) : CalmBut l s (recordHalt l cause s) := calmBut_updLane _

theorem calmBut_clearHold : CalmBut l s (clearHold l s) := calmBut_updLane _

/-- A lane that stands down has left the motion states, and no other lane is touched. -/
theorem laneRests_standDown (h : CalmBut l s t) : LaneRests l s (standDown l t) := by
  unfold standDown
  dsimp only
  split
  · exact laneRests_changeState (h.trans calmBut_clearHold) rfl
  · exact laneRests_changeState (h.trans ((calmBut_clearHold.trans (calmBut_updLane _)).trans calmBut_release)) rfl

theorem laneRests_planningHalt (cause : HaltCause) : LaneRests l s (planningHalt l cause s) :=
  laneRests_standDown (((calmBut_updLane _).trans (calmBut_recordHalt cause)).trans calm_askWithdrawal.but)

theorem laneRests_releaseHalt (cause : HaltCause) : LaneRests l s (releaseHalt l cause s) :=
  laneRests_standDown (((calmBut_recordHalt cause).trans calm_restMembers.but).trans calmBut_dropContext)

theorem laneRests_emergencyHold : LaneRests l s (emergencyHold l s) :=
  laneRests_changeState (((calm_brakeMembers.but.trans (calmBut_recordHalt _)).trans calmBut_dropContext).trans
    calmBut_clearHold) rfl

/-- The end test leaves a STOPPING lane STOPPING or HELD. -/
theorem endTest_rests (h : (s.lane l).state.motion = false) : ((endTest l s).lane l).state.motion = false := by
  unfold endTest
  split
  · rw [changeState_state]; rfl
  · exact h

theorem laneRests_controlledStop (cause : HaltCause) : LaneRests l s (controlledStop l cause s) := by
  have hhalt : CalmBut l s ((s.lane l).claimSet.foldl (haltMember l) (recordHalt l cause (settleArrivals l s))) :=
    (calm_settleArrivals.but.trans (calmBut_recordHalt cause)).trans
      (calm_foldl (haltMember l) (fun _ _ => calm_haltMember) _ _).but
  have h := laneRests_changeState (st := .stopping) hhalt rfl
  exact ⟨h.calm.trans calmBut_endTest, endTest_rests h.rests⟩

theorem laneActs_haltLane (cause : HaltCause) : LaneActs l s (haltLane l cause s) := by
  unfold haltLane
  split
  · next h => exact .inr ⟨by simp [h], .rests (laneRests_planningHalt cause)⟩
  · next h => exact .inr ⟨by simp [h], .rests (laneRests_releaseHalt cause)⟩
  · next h => exact .inr ⟨by simp [h], .rests (laneRests_controlledStop cause)⟩
  · next h => exact .inr ⟨by simp [h], .rests (.after (calmBut_recordHalt cause) laneRests_endFollow)⟩
  all_goals exact .inl (.refl s)

theorem laneActs_emergencyLane (l : LaneId) (s : State) : LaneActs l s (emergencyLane l s) := by
  unfold emergencyLane
  split
  · next h => exact .inr ⟨by simp [h], .rests (laneRests_planningHalt _)⟩
  · next h => exact .inr ⟨by simp [h], .rests laneRests_emergencyHold⟩
  · next h => exact .inr ⟨by simp [h], .rests laneRests_emergencyHold⟩
  · next h => exact .inr ⟨by simp [h], .rests laneRests_emergencyHold⟩
  all_goals exact .inl (.refl s)

theorem laneActs_enableLoss (l : LaneId) (c : Console) (s : State) : LaneActs l s (enableLoss l c s) := by
  unfold enableLoss
  split
  · exact laneActs_haltLane _
  · exact .inl (.refl s)

/-- The end test of a lane acts on STOPPING alone (R71). -/
theorem laneActs_endTest (l : LaneId) (s : State) : LaneActs l s (endTest l s) := by
  unfold endTest
  split
  · next h => exact .inr ⟨by simp [h.1], .rests (laneRests_changeState ((calmBut_updLane _).trans calmBut_dropContext) rfl)⟩
  · exact .inl (.refl s)

theorem laneActs_faultNotice (l : LaneId) (a : AxisId) (s : State) : LaneActs l s (faultNotice l a s) := by
  unfold faultNotice
  split
  · split
    · next h => exact .inr ⟨by simp [h], .rests (laneRests_releaseHalt _)⟩
    · next h => exact .inr ⟨by simp [h], .rests (laneRests_controlledStop _)⟩
    · exact laneActs_endTest l s
    all_goals exact .inl (.refl s)
  · exact .inl (.refl s)

theorem laneActs_interlockTrip (l : LaneId) (n : PairId) (s : State) : LaneActs l s (interlockTrip l n s) := by
  unfold interlockTrip
  split
  · exact .inl (.refl s)
  · split
    · next h => exact .inr ⟨by simp [h.1], .rests (laneRests_controlledStop _)⟩
    · exact .inl (.refl s)

theorem laneActs_holdAssertion (l : LaneId) (n : HoldLine) (s : State) : LaneActs l s (holdAssertion l n s) := by
  have hlatch : LaneActs l s (s.updLane l (fun ln => { ln with holdLatch := true })) :=
    .inl (calm_updLane _ (fun _ => ⟨rfl, rfl, rfl, rfl⟩))
  unfold holdAssertion
  split
  · split
    · exact hlatch
    · exact hlatch
    · exact hlatch
    · next h => exact .inr ⟨by simp [h], .rests (.after calmBut_clearHold laneRests_endFollow)⟩
    all_goals exact .inl (.refl s)
  · exact .inl (.refl s)

/-- A delivery taken leads where acting on it leads. -/
theorem laneActs_takeDelivery (l : LaneId) (m : LaneMessage) (act : State → State)
    (h : ∀ s, LaneActs l s (act s)) (s : State) : LaneActs l s (takeDelivery l m act s) := by
  unfold takeDelivery
  split
  · have hc : Calm s (s.updLane l (fun ln => { ln with inbox := ln.inbox.erase m })) :=
      calm_updLane _ (fun _ => ⟨rfl, rfl, rfl, rfl⟩)
    exact .after hc rfl (h _)
  · exact .inl (.refl s)

theorem laneActs_takeNotice (l : LaneId) (a : AxisId) (s : State) : LaneActs l s (takeNotice l a s) := by
  unfold takeNotice
  split
  · exact laneActs_takeDelivery l _ _ (laneActs_faultNotice l a) s
  · exact .inl (.refl s)

/-! ### Plan results, release and step completion -/

theorem laneRests_rejectPlan (reason : VoidReason) : LaneRests l s (rejectPlan l reason s) :=
  laneRests_standDown (calm_emit _).but

theorem laneActs_expireRelease (l : LaneId) (s : State) : LaneActs l s (expireRelease l s) := by
  unfold expireRelease
  split
  · next h _ =>
    split
    · exact .inr ⟨by simp [h], .rests (laneRests_standDown
        ((((calm_foldl _ (fun _ _ => calm_applyFault _) _ s).but.trans (calmBut_recordHalt _)).trans
          calm_restMembers.but).trans calmBut_dropContext))⟩
    · exact .inl (.refl s)
  · exact .inl (.refl s)

theorem calm_offerCompletion : Calm s (offerCompletion l s) := by
  refine SameTables.calm ⟨rfl, rfl, rfl, fun _ _ e => e, rfl, rfl⟩ (fun k => ?_)
  simp only [offerCompletion, State.lane, Table.get_mapIdx]
  split <;> exact ⟨rfl, rfl, rfl, rfl⟩

theorem calmBut_closeStep : CalmBut l s (closeStep l s) :=
  ((((calm_settleArrivals.but.trans (calm_setContext _).but).trans calmBut_release).trans (calmBut_updLane _)).trans
    (calm_emit _).but).trans calm_offerCompletion.but

theorem closeStep_planner : (closeStep l s).planner = s.planner := by
  unfold closeStep offerCompletion release settleArrivals
  rfl

theorem laneTurns_enterFollow (kind : FollowKind) (count : Nat) : LaneTurns l s (enterFollow l kind count s) := by
  have h : LaneRests l s (changeState l .follow (s.updLane l (fun ln =>
      { ln with followCounter := count, followKind := some kind, followDue := false, decrements := 0 }))) :=
    laneRests_changeState (calmBut_updLane _) rfl
  unfold enterFollow
  dsimp only
  split
  · exact (laneTurns_automaticGo l _).after h.calm (by rw [changeState_planner]; rfl)
  · exact .inl h

theorem laneRests_endSequence (broken : Bool) : LaneRests l s (endSequence l broken s) :=
  laneRests_changeState ((calmBut_updLane _).trans (calm_emit _).but) rfl

theorem laneTurns_continueSequence (mode : FollowMode) : LaneTurns l s (continueSequence l mode s) := by
  unfold continueSequence
  split
  · exact .inl (laneRests_changeState calmBut_clearHold rfl)
  · split
    · exact .inl (laneRests_changeState (Calm.refl s).but rfl)
    · exact laneTurns_enterFollow _ _
    · split
      · exact .inl (laneRests_changeState (Calm.refl s).but rfl)
      · exact laneTurns_enterFollow _ _

theorem laneActs_completeStep (l : LaneId) (s : State) : LaneActs l s (completeStep l s) := by
  unfold completeStep
  split
  · next h _ =>
    split
    · refine .inr ⟨by simp [h], .turns (by simp [h]) ?_⟩
      dsimp only
      split
      · exact .inl (.after calmBut_closeStep (laneRests_endSequence _))
      · exact ((laneTurns_continueSequence _).after (calmBut_updLane _) rfl).after calmBut_closeStep closeStep_planner
    · exact .inl (.refl s)
  · exact .inl (.refl s)

end Sys2Proof.Machine

namespace Sys2Proof.Machine

variable {s t u : State} {l k : LaneId} {a b : AxisId}

/-! ### Changes outside the lanes -/

/-- A single axis record kept, with its owner. -/
theorem calm_updAxis (f : Axis → Axis) (hf : AxisKept (s.axis a) (f (s.axis a)) ∧
    (f (s.axis a)).owner = (s.axis a).owner) : Calm s (s.updAxis a f) := by
  refine calm_axes _ (fun b => ?_)
  show AxisKept _ ((s.updAxis a f).axis b) ∧ ((s.updAxis a f).axis b).owner = _
  rw [axis_updAxis]
  split
  · next e => subst e; exact hf
  · exact ⟨.refl _, rfl⟩

/-- A station entry is replaced by another. -/
theorem calm_setStation {e : Option StationEntry} (h : e = none ↔ s.station a = none) : Calm s (s.setStation a e) where
  records := by
    refine ⟨fun _ => .refl _, fun b => ?_, fun e => ⟨e, fun _ e => e⟩⟩
    rw [station_setStation]
    split
    · next hb => rw [← hb]; exact h
    · exact .rfl
  lanes _ := ⟨rfl, rfl, rfl, fun _ => rfl, fun _ e => ⟨e, rfl⟩, fun _ e _ _ => e⟩

/-- A port changes without gaining a request in progress, or gains it when nothing loads. -/
theorem calm_updPort {p : Console} (f : Port → Port)
    (hf : s.loader.state = .loading → (s.port p).inProgress = none → (f (s.port p)).inProgress = none) :
    Calm s (s.updPort p f) := by
  refine SameTables.calm_of_lanes ⟨rfl, rfl, rfl, fun hl q e => ?_, rfl, rfl⟩ rfl
  rw [port_updPort]
  split
  · next hq => subst hq; exact hf hl e
  · exact e

theorem calm_link (x : Link) : Calm s { s with link := x } :=
  SameTables.calm_of_lanes ⟨rfl, rfl, rfl, fun _ _ e => e, rfl, rfl⟩ rfl

theorem calm_pairs (x : Table 32 (Option ClashPair)) : Calm s { s with pairs := x } :=
  SameTables.calm_of_lanes ⟨rfl, rfl, rfl, fun _ _ e => e, rfl, rfl⟩ rfl

theorem calm_latch (x : Bool) : Calm s { s with latch := x } :=
  SameTables.calm_of_lanes ⟨rfl, rfl, rfl, fun _ _ e => e, rfl, rfl⟩ rfl

theorem calm_setLine (line : Line) (ls : LineState) : Calm s (setLine line ls s) :=
  SameTables.calm_of_lanes ⟨rfl, rfl, rfl, fun _ _ e => e, rfl, rfl⟩ rfl

theorem calm_withPending (q : List Instr) : Calm s (s.withPending q) :=
  SameTables.calm_of_lanes ⟨rfl, rfl, rfl, fun _ _ e => e, rfl, rfl⟩ rfl

theorem calm_setLatch (source : Option Console) : Calm s (setLatch source s) := by
  unfold setLatch
  split
  · exact .refl s
  · exact ((calm_latch true).trans (calm_emit _)).trans (calm_deliverAll _)

theorem calm_qualify (line : Line) : Calm s (qualify line s) := by
  have hchange : ∀ (high : Bool) (v : State), Calm v (deliverChange line high v) := by
    intro high v
    unfold deliverChange
    split
    · exact calm_setLatch _
    · exact calm_deliverAll _
    · exact calm_deliverAll _
    all_goals exact .refl v
  unfold qualify
  dsimp only
  split
  · exact (calm_setLine _ _).trans (hchange _ _)
  · exact .refl s

/-- A write's gap check reaches the last gaps, the inboxes and the posted events alone (R147 to R149). -/
theorem calm_sendTrip (n : PairId) : Calm s (sendTrip a n s) := by
  unfold sendTrip
  split
  · exact .refl s
  · refine Calm.trans ?_ (calm_foldl _ (fun _ _ => calm_deliver _) _ _)
    split
    · exact calm_emit _
    · exact .refl s

theorem calm_noteWrite (byMotion : Bool) : Calm s (noteWrite byMotion a s) :=
  (calm_foldl (fun t n => sendTrip a n t) (fun _ _ => calm_sendTrip _) _ s).trans (calm_pairs _)

/-! ### Events and replies (R173, R177) -/

theorem offered_inProgress (es : List EventRecord) (pt : Port) : (offered es pt).inProgress = pt.inProgress := by
  induction es generalizing pt with
  | nil => rfl
  | cons e rest ih =>
    have hone : (offerPort e pt).inProgress = pt.inProgress := by
      unfold offerPort setPending
      split
      · split <;> rfl
      · split <;> rfl
    exact (ih _).trans hone

theorem calm_ports (f : Port → Port) (hf : ∀ pt, (f pt).inProgress = pt.inProgress) :
    Calm s { s with ports := s.ports.map f } := by
  refine SameTables.calm_of_lanes ⟨rfl, rfl, rfl, fun _ p e => ?_, rfl, rfl⟩ rfl
  simp only [State.port, Table.get_map, hf]
  exact e

theorem calm_offerAll : Calm s (offerAll s) := by
  rw [offerAll_eq]
  exact (calm_ports _ (offered_inProgress _)).trans (calm_updMessages (fun m => { m with posted := [] }))

theorem calm_offerOldest : Calm s (offerOldest s) := by
  unfold offerOldest
  split
  · exact .refl s
  · next e rest _ =>
    exact (calm_updMessages (fun m => { m with posted := rest })).trans (calm_ports _ (offered_inProgress [e]))

theorem calm_queueReply {p : Console} (r : PortReply) : Calm s (queueReply p r s) :=
  calm_updPort _ (fun _ e => e)

theorem calm_countFrameError {p : Console} : Calm s (countFrameError p s) :=
  calm_updPort _ (fun _ e => e)

/-- After its change a request only offers events and leaves its reply (R173). -/
theorem calm_finish (p : Console) (tag kind : Byte) (act : State → State × Answer) (s : State) :
    Calm (act s).1 (finish p tag kind act s) := by
  have hnew : Calm (act s).1 (offerNew s.messages.posted.length (act s).1) := by
    unfold offerNew
    split
    · exact .refl _
    · exact calm_offerAll
  exact (hnew.trans (calm_updPort _ (fun _ _ => rfl))).trans (calm_queueReply _)

/-- What holds after every calm change, and after a request's own change, holds after the request command; while the image
loads no request is taken (R172). -/
theorem serve_keeps {P : State → Prop} (hP : ∀ {s t}, Calm s t → P s → P t) (agree : RecordsAgree s) (hs : P s)
    {p : Console} {tag kind : Byte} {self : Instr} {act : State → State × Answer}
    (hact : s.loader.state ≠ .loading → P (act s).1) : P (serve p tag kind self act s) := by
  have hfinish (hn : s.loader.state ≠ .loading) : P (finish p tag kind act s) :=
    hP (calm_finish p tag kind act s) (hact hn)
  unfold serve
  split
  · next h => exact hfinish (fun hl => by rw [(agree.2 hl).2 p] at h; cases h)
  · unfold admissionOf
    split_ifs with h1 h2 h3
    · exact hP calm_countFrameError hs
    · exact hP (calm_queueReply _) hs
    · exact hP (calm_queueReply _) hs
    · exact hfinish h2

/-- A lane request acts on a lane or answers a refusal (R24). -/
theorem onLane_keeps {P : State → Prop} {lane : Byte} {act : LaneId → State → State × Answer} (hs : P s)
    (hact : ∀ l, P (act l s).1) : P (onLane lane act s).1 := by
  unfold onLane
  split
  · exact hs
  · exact hact _

theorem onOwnLane_keeps {P : State → Prop} {p : Console} {lane : Byte} {act : LaneId → State → State × Answer} (hs : P s)
    (hact : ∀ l, P (act l s).1) : P (onOwnLane p lane act s).1 := by
  unfold onOwnLane
  split
  · exact hs
  · split
    · exact hact _
    · exact hs

/-! ### Lane requests (Chapters 2 and 4) -/

theorem calm_setController (c : Option Console) : Calm s (setController l c s) :=
  (calm_updLane (fun ln => { ln with controller := c }) (fun _ => ⟨rfl, rfl, rfl, rfl⟩)).trans (calm_emit _)

theorem calm_takeLane (p : Console) (l : LaneId) (s : State) : Calm s (takeLane p l s).1 := by
  unfold takeLane
  split
  · exact calm_setController _
  · split
    · exact .refl s
    · split
      · exact calm_setController _
      · exact .refl s

theorem calm_yieldLane (l : LaneId) (s : State) : Calm s (yieldLane l s).1 := by
  unfold yieldLane
  split
  all_goals first | exact calm_setController _ | exact .refl s

theorem calm_setHoldLine (source : Byte) (l : LaneId) (s : State) : Calm s (setHoldLine source l s).1 := by
  unfold setHoldLine
  split
  · exact .refl s
  · exact calm_updLane _ (fun _ => ⟨rfl, rfl, rfl, rfl⟩)

theorem calm_setRate (rate : Half) (l : LaneId) (s : State) : Calm s (setRate rate l s).1 :=
  calm_updLane (fun ln => { ln with requestedRate := min rate.toNat Config.fullRate }) (fun _ => ⟨rfl, rfl, rfl, rfl⟩)

theorem calm_setRepeat (count : Byte) (l : LaneId) (s : State) : Calm s (setRepeat count l s).1 :=
  calm_updLane (fun ln => { ln with repeatSetting := count.toNat, repeatRemaining := count.toNat })
    (fun _ => ⟨rfl, rfl, rfl, rfl⟩)

theorem laneRests_loadStep (r : StepRef) : LaneRests l s (loadStep l r s) :=
  laneRests_changeState (calmBut_updLane _) rfl

theorem calmBut_letGo : CalmBut l s (letGo l s) := (calmBut_updLane _).trans calmBut_release

theorem laneServes_loadLane (step : Half) (l : LaneId) (s : State) : LaneServes l s (loadLane step l s).1 := by
  have hload (r : StepRef) (v : State) (hv : CalmBut l s v) : LaneServes l s (loadStep l r v) :=
    .rests (.after hv (laneRests_loadStep r))
  have hhold : CalmBut l s (if (s.lane l).state = .held then letGo l s else s) := by
    split
    · exact calmBut_letGo
    · exact (Calm.refl s).but
  unfold loadLane
  cases stepOf step with
  | none => exact .calm (.refl s)
  | some n =>
    cases h : (s.lane l).state <;> rw [h] at hhold <;> dsimp only
    case idle | ready | held =>
      cases (s.cues.slots.get n).isNone
      · exact hload _ _ hhold
      · exact .calm (.refl s)
    all_goals exact .calm (.refl s)

theorem laneServes_clearLane (l : LaneId) (s : State) : LaneServes l s (clearLane l s).1 := by
  have hclear : LaneServes l s (changeState l .idle ((letGo l s).updLane l (fun ln =>
      { ln with holdLatch := false, haltCause := .none, followDue := false, decrements := 0 }))) :=
    .rests (laneRests_changeState (calmBut_letGo.trans (calmBut_updLane _)) rfl)
  unfold clearLane
  split
  · exact .calm (calm_updLane _ (fun _ => ⟨rfl, rfl, rfl, rfl⟩))
  · exact hclear
  · exact hclear
  · exact hclear
  all_goals exact .calm (.refl s)

theorem laneServes_goLane (p : Console) (l : LaneId) (s : State) : LaneServes l s (goLane p l s).1 := by
  unfold goLane
  split
  · next hs =>
    split
    · next h => exact .turns (by simp [hs]) (.inr (lanePlans_enterPlanning _ h))
    · exact .calm (.refl s)
  · next hs =>
    split
    · next h => exact .turns (by simp [hs]) (.inr (lanePlans_enterPlanning _ h))
    · exact .calm (.refl s)
  · next hs =>
    split
    · next h => exact .turns (by simp [hs]) (.inr (lanePlans_enterPlanning _ h))
    · exact .rests laneRests_endFollow
  all_goals exact .calm (.refl s)

theorem laneServes_haltRequest (l : LaneId) (s : State) : LaneServes l s (haltRequest l s).1 :=
  (laneActs_haltLane _).serves

/-- A lane's direct step is no other lane's step (R49). -/
theorem laneRests_writeDirect (st : Step) : LaneRests l s (writeDirect l st s) := by
  refine .after (t := { s with cues := { s.cues with privates := s.cues.privates.set l (some st) } })
    ⟨⟨fun _ => .refl _, fun _ => .rfl, fun e => ⟨e, fun _ e => e⟩⟩, fun k hk => ?_⟩ (laneRests_loadStep _)
  refine ⟨rfl, rfl, rfl, fun _ => ?_, fun _ e => ⟨e, rfl⟩, fun _ e _ _ => e⟩
  unfold currentStep
  rw [show ({ s with cues := { s.cues with privates := s.cues.privates.set l (some st) } } : State).lane k = s.lane k
    from rfl]
  split
  · rfl
  · rfl
  · exact Table.get_set_of_ne _ _ hk.symm

theorem writeDirect_planner (st : Step) : (writeDirect l st s).planner = s.planner := by
  rw [writeDirect, loadStep, changeState_planner]
  rfl

theorem laneServes_directLane (p : Console) (rs tn : Half) (ms : List RawMove) (l : LaneId) (s : State) :
    LaneServes l s (directLane p rs tn ms l s).1 := by
  have hgo (st : Step) (c : Answer) (f : Refused → Answer) (hs : (s.lane l).state ≠ .planning) : LaneServes l s
      (match goChecks l (some p) (writeDirect l st s) with
        | .ok s2 => (enterPlanning l false s2, c)
        | .error r => (writeDirect l st s, f r)).1 := by
    split
    · next h => exact .turns hs (LaneTurns.after (laneRests_writeDirect st).calm (writeDirect_planner st)
        (.inr (lanePlans_enterPlanning false h)))
    · exact .rests (laneRests_writeDirect st)
  unfold directLane
  split
  · exact .calm (.refl s)
  · split
    · next h => exact hgo _ _ _ (by simp [h])
    · next h => exact hgo _ _ _ (by simp [h])
    all_goals exact .calm (.refl s)

/-! ### Step requests (Chapter 3) -/

/-- A numbered slot that no lane uses is no PLANNING lane's step (R44). -/
theorem calm_setSlot {n : StepNo} (so : Option Step) (h : inUse s n = false) : Calm s (setSlot n so s) where
  records := ⟨fun _ => .refl _, fun _ => .rfl, fun e => ⟨e, fun _ e => e⟩⟩
  lanes k := by
    refine ⟨rfl, rfl, rfl, fun hs => ?_, fun _ e => ⟨e, rfl⟩, fun _ e _ _ => e⟩
    have hcur : (s.lane k).current ≠ some (.numbered n) := by
      intro e
      have hk : k ∈ usersOf s n := by simp [usersOf, hs, e]
      simp only [inUse, Bool.not_eq_false', List.isEmpty_iff] at h
      rw [h] at hk
      cases hk
    unfold currentStep
    rw [show (setSlot n so s).lane k = s.lane k from rfl]
    split
    · rfl
    · next m hm =>
      refine Table.get_set_of_ne _ _ (fun e => hcur ?_)
      rw [hm, e]
    · rfl

theorem calm_putStep (step : Half) (b : RawStep) (s : State) : Calm s (putStep step b s).1 := by
  unfold putStep
  split
  · split_ifs with h
    · exact .refl s
    · exact .refl s
    · exact calm_setSlot _ (by simpa using h)
  · exact .refl s

theorem calm_dropStep (step : Half) (s : State) : Calm s (dropStep step s).1 := by
  unfold dropStep
  split
  · exact .refl s
  · split_ifs with _ h
    · exact .refl s
    · exact .refl s
    · exact calm_setSlot _ (by simpa using h)

theorem getStep_state (selector : Byte) (number : Half) (s : State) : (getStep selector number s).1 = s := by
  unfold getStep
  split
  · rfl
  · rfl
  · split
    · split <;> rfl
    · rfl
  · rfl

/-! ### Other requests -/

theorem getAxis_state (axis : Byte) (s : State) : (getAxis axis s).1 = s := by
  unfold getAxis
  split <;> rfl

theorem calm_lockSet (value mask : BitVec 48) (s : State) : Calm s (lockSet value mask s).1 := by
  refine calm_axes _ (fun b => ?_)
  rw [Table.get_mapIdx]
  split <;> exact ⟨⟨rfl, rfl, .rfl, .rfl, .rfl⟩, rfl⟩

theorem calm_putPair (pair upper lower : Byte) (gap : Half) (s : State) : Calm s (putPair pair upper lower gap s).1 := by
  unfold putPair
  split
  · exact .refl s
  · split
    · exact .refl s
    · split
      · split_ifs
        · exact .refl s
        · exact .refl s
        · exact calm_pairs _
      · exact .refl s

theorem calm_dropPair (pair : Byte) (s : State) : Calm s (dropPair pair s).1 := by
  unfold dropPair
  split
  · exact .refl s
  · split
    · exact .refl s
    · exact calm_pairs _

theorem calm_getStation (axis clear : Byte) (s : State) : Calm s (getStation axis clear s).1 := by
  unfold getStation
  split
  · exact .refl s
  · split
    · exact .refl s
    · split
      · exact .refl s
      · next e he =>
        dsimp only
        split
        · exact calm_setStation (by simp [he])
        · exact .refl s

theorem calm_setFilter (p : Console) (filter : Byte) (s : State) : Calm s (setFilter p filter s).1 := by
  unfold setFilter
  split
  · exact .refl s
  · exact calm_updPort _ (fun _ e => e)

theorem calm_clearEStop (p : Console) (s : State) : Calm s (clearEStop p s).1 := by
  unfold clearEStop
  split_ifs
  · exact .refl s
  · exact (calm_latch false).trans (calm_emit _)
  · exact .refl s

theorem calm_saveImage (p : Console) (s : State) : Calm s (saveImage p s).1 := by
  unfold saveImage
  split
  · exact .refl s
  · exact SameTables.calm_of_lanes ⟨rfl, rfl, rfl, fun _ _ e => e, rfl, rfl⟩ rfl

/-! ### Steps outside the lanes -/

/-- A finished save can only take the state out of LOADING. -/
theorem calm_completeSave (bad : List (Nat × Byte)) (s : State) : Calm s (completeSave bad s) := by
  have hloader (m : Memory) (c : ConfigState) (hc : c ≠ .loading) :
      Calm s { s with memory := m, loader := ⟨c, none⟩ } :=
    ⟨⟨fun _ => .refl _, fun _ => .rfl, fun e => absurd e hc⟩,
      fun _ => ⟨rfl, rfl, rfl, fun _ => rfl, fun _ e => ⟨e, rfl⟩, fun _ e _ _ => e⟩⟩
  unfold completeSave
  split
  · exact .refl s
  · dsimp only
    split
    · exact (hloader _ _ (by simp)).trans (calm_emit _)
    · exact (hloader _ _ (by simp)).trans (calm_emit _)

theorem calm_beginPeriod (s : State) : Calm s (beginPeriod s) where
  records := ⟨fun _ => .refl _, fun a => by simp [beginPeriod, State.station], fun e => ⟨e, fun _ e => e⟩⟩
  lanes k := by
    have hl : (beginPeriod s).lane k = { s.lane k with followDue := followDueAt (s.lane k) } := by
      simp [beginPeriod, State.lane]
    exact ⟨by rw [hl], by rw [hl], by rw [hl], fun _ => currentStep_congr rfl (by rw [hl]), fun _ e => ⟨e, rfl⟩,
      fun _ e _ _ => e⟩

theorem calm_takeArrival (a : AxisId) (s : State) : Calm s (takeArrival a s) := by
  unfold takeArrival
  split
  · refine calm_updAxis _ ?_
    by_cases h : (s.axis a).state = .moving
    · exact AxisKept.of_state rfl (by simp [h]) (by simp [h])
    · exact ⟨⟨rfl, rfl, .rfl, by simp [h], by simp [h]⟩, rfl⟩
  · exact .refl s

theorem calm_takeMark (a : AxisId) (s : State) : Calm s (takeMark a s) := by
  have hset (n : MarkNotice) (v : State) : Calm v (setMark n v) := by
    unfold setMark
    split
    · split
      · exact .refl v
      · exact calm_setContext _
    · exact .refl v
  unfold takeMark
  split
  · exact .refl s
  · exact (calm_updMessages _).trans (hset _ _)

theorem calm_planWithdrawal (l : LaneId) (s : State) :
    Calm s (if l ∈ s.planner.withdrawals then { s with planner := withdraw l s.planner } else s) := by
  split
  · exact ⟨⟨fun _ => .refl _, fun _ => .rfl, fun e => ⟨e, fun _ e => e⟩⟩,
      fun _ => ⟨rfl, rfl, rfl, fun _ => rfl, fun _ e => ⟨e, rfl⟩, fun _ e hw _ => (withdraw_job e hw).1⟩⟩
  · exact .refl s

theorem calm_takeFaultRequest (a : AxisId) (cause : FaultCause) (s : State) : Calm s (takeFaultRequest a cause s) := by
  unfold takeFaultRequest
  split
  · exact (calm_updMessages _).trans (calm_applyFault _)
  · exact .refl s

theorem calm_driveRound (s : State) : Calm s (driveRound s) := by
  unfold driveRound
  split
  · split
    · exact calm_link _
    · split
      · exact calm_link _
      · next b _ _ e he => exact (calm_setStation (a := b) (e := some _) (by simp [he])).trans (calm_link _)
  · exact .refl s

theorem calm_warnLoad (c : ReplyCheck) (s : State) : Calm s (warnLoad c s) := by
  have hflag (x : Bool) : Calm s (s.updAxis c.axis (fun y => { y with loadWarning := x })) :=
    calm_updAxis _ ⟨⟨rfl, rfl, .rfl, .rfl, .rfl⟩, rfl⟩
  unfold warnLoad
  dsimp only
  split
  · exact .refl s
  · split_ifs
    · exact hflag true
    · exact (hflag true).trans (calm_emit _)
    · exact hflag false
    · exact .refl s

theorem calm_takeReplyCheck (a : AxisId) (s : State) : Calm s (takeReplyCheck a s) := by
  have hcheck (c : ReplyCheck) (v : State) : Calm v (checkReply c v) := by
    unfold checkReply
    split
    · exact calm_updMessages _
    · exact calm_warnLoad c v
  unfold takeReplyCheck
  split
  · exact .refl s
  · exact (calm_updMessages _).trans (hcheck _ _)

/-- A frame becomes a request in progress only when nothing loads (R172). -/
theorem calm_judgeFrame (p : Console) (s : State) : Calm s (judgeFrame p s) := by
  have hadmit (f : ConsoleFrame) (v : State) : Calm v (admitFrame p f v) := by
    unfold admitFrame admissionOf
    split_ifs with h1 h2 h3
    · exact calm_countFrameError
    · exact calm_queueReply _
    · exact calm_queueReply _
    · split
      · next h => split at h <;> cases h
      · exact calm_queueReply _
      · exact calm_updPort _ (fun hl => absurd hl h2)
  unfold judgeFrame
  split
  · exact .refl s
  · have hp : Calm s (s.updPort p (fun pt => { pt with complete := ‹List ConsoleFrame› })) :=
      calm_updPort _ (fun _ e => e)
    dsimp only
    split
    · exact hp.trans (hadmit _ _)
    · exact hp.trans calm_countFrameError

theorem calm_frameTimeout (p : Console) (s : State) : Calm s (s.updPort p timeoutFrame) :=
  calm_updPort _ (fun _ e => by unfold timeoutFrame; split <;> exact e)

theorem calm_replySent (p : Console) (s : State) : Calm s (s.updPort p sendReply) :=
  calm_updPort _ (fun _ e => by unfold sendReply; split <;> exact e)

theorem receiveByte_inProgress (b : Byte) (fault : Bool) (pt : Port) :
    (receiveByte b fault pt).inProgress = pt.inProgress := by
  unfold receiveByte
  split
  · unfold huntByte; split <;> rfl
  · split
    · rfl
    · unfold headerByte
      split
      · split <;> rfl
      · rfl
      · rfl
  · split <;> rfl
  · split
    · rfl
    · unfold checkByte; split <;> rfl

theorem calm_byteReceived (p : Console) (b : Byte) (fault : Bool) (s : State) :
    Calm s (s.updPort p (receiveByte b fault)) :=
  calm_updPort _ (fun _ e => (receiveByte_inProgress b fault _).trans e)

theorem calm_releaseWork (c : MotionContext) : Calm s (releaseWork l c s) := calm_setContext _

end Sys2Proof.Machine

namespace Sys2Proof.Machine

variable {s t u : State} {l k : LaneId} {a b : AxisId}

/-! ### Records that agree (Table 1-2, R1, R152) -/

/-- Configuration, station entry and setpoints are present exactly as the axis state says. -/
def AxisAgrees (x : Axis) (e : Option StationEntry) : Prop :=
  (x.config = none ↔ x.state = .unconfigured) ∧ (e = none ↔ x.state = .unconfigured) ∧
    (x.setpoint = none ↔ x.state = .unconfigured ∨ x.state = .offline) ∧ (x.previous = none ↔ x.setpoint = none)

/-- The states in which an axis has a setpoint. -/
def AxisState.live (st : AxisState) : Prop := st ≠ .unconfigured ∧ st ≠ .offline

theorem axisAgrees_of_live {x : Axis} {e : Option StationEntry} (hs : x.state.live) (hc : x.config ≠ none) (he : e ≠ none)
    (hv : x.setpoint ≠ none) (hp : x.previous ≠ none) : AxisAgrees x e := by
  simp [AxisAgrees, hs.1, hs.2, hc, he, hv, hp]

theorem RecordsKept.agree (h : RecordsKept s t) (hs : RecordsAgree s) : RecordsAgree t := by
  refine ⟨fun a => ?_, fun hl => ?_⟩
  · have ha := hs.1 a
    have hk := h.axis a
    rw [hk.config, hk.setpoint, hk.previous, hk.unconfigured, hk.offline, h.station a]
    exact ha
  · obtain ⟨hl', hp⟩ := h.loading hl
    obtain ⟨hu, hi⟩ := hs.2 hl'
    exact ⟨fun a => (h.axis a).unconfigured.2 (hu a), fun p => hp p (hi p)⟩

theorem Calm.agree (h : Calm s t) (hs : RecordsAgree s) : RecordsAgree t := h.records.agree hs

theorem LaneTurns.agree (h : LaneTurns l s t) (hs : RecordsAgree s) : RecordsAgree t := by
  obtain h | ⟨u, rfl, h, -⟩ := h
  · exact h.calm.records.agree hs
  · exact (records_startService u).agree (h.records.agree hs)

theorem LaneServes.agree (h : LaneServes l s t) (hs : RecordsAgree s) : RecordsAgree t := by
  cases h with
  | calm h => exact h.agree hs
  | rests h => exact h.calm.records.agree hs
  | turns _ h => exact h.agree hs

theorem LaneActs.agree (h : LaneActs l s t) (hs : RecordsAgree s) : RecordsAgree t := h.serves.agree hs

/-- While no image loads, one axis and its entry may change together. -/
theorem RecordsAgree.change (h : RecordsAgree s) (a : AxisId) (hl : t.loader.state ≠ .loading)
    (ha : AxisAgrees (t.axis a) (t.station a))
    (hb : ∀ b, b ≠ a → t.axis b = s.axis b ∧ t.station b = s.station b) : RecordsAgree t := by
  refine ⟨fun b => ?_, fun e => absurd e hl⟩
  by_cases hba : b = a
  · rw [hba]; exact ha
  · rw [(hb b hba).1, (hb b hba).2]; exact h.1 b

/-- An axis that is configured stands in a part that has loaded. -/
theorem RecordsAgree.loaded (h : RecordsAgree s) (ha : (s.axis a).state ≠ .unconfigured) : s.loader.state ≠ .loading :=
  fun hl => ha ((h.2 hl).1 a)

theorem RecordsAgree.live_iff (h : RecordsAgree s) : (s.axis a).state.live ↔ (s.axis a).setpoint ≠ none := by
  simp [AxisState.live, (h.1 a).2.2.1]

theorem RecordsAgree.configured (h : RecordsAgree s) (ha : (s.axis a).state ≠ .unconfigured) :
    (s.axis a).config ≠ none ∧ s.station a ≠ none := by
  simp [(h.1 a).1, (h.1 a).2.1, ha]

/-- A write of the setpoints of an axis that has them keeps its record agreed. -/
theorem agree_write (h : RecordsAgree s) (ha : (s.axis a).state.live) {f : Axis → Axis}
    (hf : f (s.axis a) = { s.axis a with setpoint := (f (s.axis a)).setpoint, previous := (f (s.axis a)).previous })
    (hv : (f (s.axis a)).setpoint ≠ none) (hp : (f (s.axis a)).previous ≠ none) : RecordsAgree (s.updAxis a f) := by
  obtain ⟨hc, he⟩ := h.configured ha.1
  refine h.change a (h.loaded ha.1) ?_ (fun b hb => ⟨by rw [axis_updAxis, if_neg hb.symm], rfl⟩)
  rw [axis_updAxis_same, State.updAxis_get_station]
  rw [hf]
  exact axisAgrees_of_live ha hc he hv hp

theorem agree_moveSetpoint (v : Nat) (h : RecordsAgree s) (ha : (s.axis a).state.live) :
    RecordsAgree (moveSetpoint a v s) :=
  (calm_noteWrite true).agree (agree_write h ha rfl (by simp) (h.live_iff.1 ha))

theorem agree_seed (f : Nat) (h : RecordsAgree s) (ha : (s.axis a).state.live) : RecordsAgree (seed a f s) := by
  unfold seed
  split
  · exact h
  · exact (calm_noteWrite false).agree (agree_write h ha rfl (by simp) (by simp))

/-! ### Steps that move a setpoint -/

theorem calm_noteEvaluation (sr : Int) : Calm s (noteEvaluation l a sr s) := calm_setContext _

theorem calm_arriving (x : Bool) : Calm s (s.updAxis a (fun y => { y with arriving := x })) :=
  calm_updAxis _ ⟨⟨rfl, rfl, .rfl, .rfl, .rfl⟩, rfl⟩

theorem agree_evaluateMember (ramp time : Nat) (m : PlanMember) (h : RecordsAgree s) :
    RecordsAgree (evaluateMember l ramp time s m) := by
  unfold evaluateMember
  dsimp only
  split
  · next hm =>
    have h1 := (calm_noteEvaluation (l := l) (a := m.axis) (memberTime time m.delay)).agree
      (agree_moveSetpoint (m.position (covered m.cruise m.distance ramp m.span (memberTime time m.delay))) h
        (show (s.axis m.axis).state.live by simp [AxisState.live, hm.1]))
    split
    · exact (calm_arriving true).agree h1
    · exact h1
  · exact h

theorem foldl_keeps {α : Type} {P : State → Prop} {f : State → α → State} {xs : List α}
    (hf : ∀ s, ∀ x ∈ xs, P s → P (f s x)) (hs : P s) : P (xs.foldl f s) := by
  induction xs generalizing s with
  | nil => exact hs
  | cons x rest ih =>
    exact ih (fun s y hy => hf s y (List.mem_cons_of_mem _ hy)) (hf s x List.mem_cons_self hs)

theorem agree_runningWork (c : MotionContext) (plan : PlanRecord) (h : RecordsAgree s) :
    RecordsAgree (runningWork l c plan s) := by
  have hstart (rate time : Nat) : RecordsAgree ((s.updLane l (fun ln => { ln with effectiveRate := rate })).setContext l
      (some { c with profileTime := time, due := false })) :=
    ((calmBut_updLane _).trans (calm_setContext _).but).records.agree h
  have hmoved (rate time : Nat) := foldl_keeps (xs := plan.moving)
    (fun _ m _ => agree_evaluateMember (l := l) plan.ramp time m) (hstart rate time)
  unfold runningWork
  dsimp only
  split
  · exact (calm_setContext _).agree (hmoved _ _)
  · exact hmoved _ _

theorem agree_generatorWork (l : LaneId) (h : RecordsAgree s) : RecordsAgree (generatorWork l s) := by
  unfold generatorWork
  split
  · exact h
  · split
    · split
      · exact (calm_releaseWork _).agree h
      · exact agree_runningWork _ _ h
      · exact (calm_setContext _).agree h
    · exact h

theorem calm_ite {p : Prop} [Decidable p] (ht : Calm s t) (hu : Calm s u) : Calm s (if p then t else u) := by
  split
  · exact ht
  · exact hu

/-- What holds after every calm change, after the step's write and after an end test holds after a stop step (R117). -/
theorem trajectoryStep_keeps {P : State → Prop} (hP : ∀ {s t}, Calm s t → P s → P t)
    (hend : ∀ l s, P s → P (endTest l s)) (hlive : (s.axis a).state.live) {r : StopRecord} {cfg : AxisConfig} {v : Nat}
    (hmove : ∀ t, Calm s t → P (moveSetpoint a
      (stopTarget cfg r.direction v (stopMovement r.velocity r.rampFloor (r.index + 1))).1 t)) :
    P (trajectoryStep a r cfg v s) := by
  have hrest (t : State) (ht : Calm s t) : P ((setAxisState a .rest (moveSetpoint a
      (stopTarget cfg r.direction v (stopMovement r.velocity r.rampFloor (r.index + 1))).1 t)).setStop a none) := by
    refine hP ((calm_setAxisState .rest ?_ (by simp)).trans (calm_setStop none)) (hmove t ht)
    rw [moveSetpoint_axis]
    simpa only [AxisState.live, ne_eq, (ht.records.axis a).unconfigured, (ht.records.axis a).offline] using hlive
  unfold trajectoryStep
  dsimp only
  split
  · split
    · exact hend _ _ (hrest _ ((calm_ite (calm_emit _) (.refl s)).trans (calm_setStop _)))
    · exact hrest _ ((calm_ite (calm_emit _) (.refl s)).trans (calm_setStop _))
  · exact hmove _ ((calm_ite (calm_emit _) (.refl s)).trans (calm_setStop _))

theorem agree_stopStep (a : AxisId) (h : RecordsAgree s) : RecordsAgree (stopStep a s) := by
  unfold stopStep
  split
  · next hv =>
    split
    · have hlive : (s.axis a).state.live := h.live_iff.2 (by simp [hv])
      refine trajectoryStep_keeps (·.agree) (fun l _ => (laneActs_endTest l _).agree) hlive (fun t ht => ?_)
      refine agree_moveSetpoint _ (ht.agree h) ?_
      simpa only [AxisState.live, ne_eq, (ht.records.axis a).unconfigured, (ht.records.axis a).offline] using hlive
    · exact h
  · exact h

/-! ### Plan results and plans -/

/-- Members of an accepted plan that start keep their setpoints, which become their previous ones (R7). -/
theorem calm_startMembers (xs : List AxisId) (h : RecordsAgree s) : Calm s (xs.foldl startMember s) := by
  rw [startMember_all]
  have haxes : Calm s { s with axes := s.axes.mapIdx (fun b ax => if b ∈ xs ∧ ax.state = .rest then
      { ax with state := .moving, previous := ax.setpoint, arriving := false } else ax) } := by
    refine calm_axes _ (fun b => ?_)
    rw [Table.get_mapIdx]
    split
    · next hb =>
      have hs : (s.axis b).state = .rest := hb.2
      exact ⟨⟨rfl, rfl, (h.1 b).2.2.2.symm, by simp [hs], by simp [hs]⟩, rfl⟩
    · exact ⟨.refl _, rfl⟩
  refine haxes.trans ⟨⟨fun _ => .refl _, fun b => ?_, fun e => ⟨e, fun _ e => e⟩⟩,
    fun _ => ⟨rfl, rfl, rfl, fun _ => rfl, fun _ e => ⟨e, rfl⟩, fun _ e _ _ => e⟩⟩
  simp only [State.station, Table.get_mapIdx]
  split <;> simp

theorem calm_postClipped (m : PlanMember) : Calm s (postClipped l s m) := by
  unfold postClipped
  split
  · exact calm_emit _
  · exact .refl s

/-- An accepted plan: its lane enters RELEASING with the plan (R65). -/
theorem calmBut_acceptPlan (plan : PlanRecord) (h : RecordsAgree s) : CalmBut l s (acceptPlan l plan s) := by
  have h1 : CalmBut l s ((s.updLane l (fun ln => { ln with plan := some plan })).setContext l (some (newContext plan))) :=
    (calmBut_updLane _).trans (calm_setContext _).but
  have h2 := h1.trans (calm_startMembers (plan.moving.map (·.axis)) (h1.records.agree h)).but
  have h3 := (h2.trans (calmBut_changeState .releasing)).trans
    (calm_foldl (postClipped l) (fun _ _ => calm_postClipped _) plan.members _).but
  unfold acceptPlan
  dsimp only
  split
  · exact h3.trans calmBut_enterRunning
  · exact h3

theorem records_takeResult (l : LaneId) (h : RecordsAgree s) : RecordsKept s (takeResult l s) := by
  have hclear : CalmBut l s (s.updLane l (fun ln => { ln with planResult := none })) := calmBut_updLane _
  unfold takeResult
  split
  · dsimp only
    split
    · exact (hclear.trans (calmBut_acceptPlan _ (hclear.records.agree h))).records
    · exact (hclear.trans (laneRests_rejectPlan _).calm).records
    · exact (hclear.trans (laneRests_rejectPlan _).calm).records
    · exact (hclear.trans (laneRests_rejectPlan _).calm).records
  · exact (Calm.refl s).records

theorem calmBut_endRelease (l : LaneId) (s : State) : CalmBut l s (endRelease l s) := by
  unfold endRelease
  split
  · split
    · exact calmBut_enterRunning
    · exact (Calm.refl s).but
  · exact (Calm.refl s).but

theorem records_completePlan (s : State) : RecordsKept s (completePlan s) := by
  have hdeliver (l : LaneId) (r : PlanResult) (v : State) : RecordsKept v (deliverResult l r v) := by
    unfold deliverResult
    split
    · exact (calmBut_updLane _).records
    · exact (Calm.refl v).records
  have hidle (p : Planner) : RecordsKept s { s with planner := p } :=
    ⟨fun _ => .refl _, fun _ => .rfl, fun e => ⟨e, fun _ e => e⟩⟩
  unfold completePlan
  split
  · exact (Calm.refl s).records
  · refine RecordsKept.trans ?_ (records_startService _)
    split
    · exact hidle _
    · exact (hidle _).trans (hdeliver _ _ _)

/-! ### The drive link (Chapter 9) -/

theorem calm_storeEntry {before after : StationEntry} (h : s.station a ≠ none) :
    Calm s (storeEntry a before after s) := by
  have hset : Calm s (s.setStation a (some after)) := calm_setStation (by simp [h])
  unfold storeEntry
  dsimp only
  split
  · exact hset
  · split
    · exact (hset.trans (calm_emit _)).trans (calm_updMessages _)
    · exact hset.trans (calm_emit _)

theorem calm_copyReply (r : Reply) : Calm s (copyReply a r s) := by
  refine calm_updAxis _ ?_
  split
  · exact ⟨.refl _, rfl⟩
  · exact ⟨⟨rfl, rfl, .rfl, .rfl, .rfl⟩, rfl⟩

theorem calm_handToMotion (r : Reply) (fr : FrameRecord) : Calm s (handToMotion a r fr s) := by
  unfold handToMotion
  split
  · exact calm_updMessages _
  · exact .refl s

/-- What holds after every calm change and after the seeding of a REST axis holds after a reply's outcome is taken
(R165). -/
theorem takeSlot_keeps {P : State → Prop} (hP : ∀ {s t}, Calm s t → P s → P t)
    (hseed : ∀ s f, (s.axis a).state = .rest → P s → P (seed a f s)) (he : s.station a ≠ none) (hs : P s)
    (e : StationEntry) (o : ReplyOutcome) : P (takeSlot a e o s) := by
  have hstore := hP (calm_storeEntry (before := e) (after := takeOutcome o e) he) hs
  unfold takeSlot
  dsimp only
  split
  · next r fr _ =>
    have hgiven : P (handToSupervisor a r fr (copyReply a r (storeEntry a e (takeOutcome (.good r) e) s))) :=
      hP ((calm_copyReply r).trans (calm_updMessages _)) hstore
    have hlatch (v : State) (hv : P v) : P (seedUnderLatch a r.feedback v) := by
      unfold seedUnderLatch
      split
      · next h => exact hseed _ _ h.2 hv
      · exact hv
    exact hP (calm_handToMotion r fr) (hlatch _ (hP (calm_ite (calm_updMessages _) (.refl _)) hgiven))
  · exact hstore

theorem calm_closeSlot : Calm s (closeSlot s) := calm_link _

/-- The same for the frame or the window's end that brings the outcome (R156, R157). -/
theorem statusFrame_keeps {P : State → Prop} (hP : ∀ {s t}, Calm s t → P s → P t)
    (hseed : ∀ a s f, (s.axis a).state = .rest → P s → P (seed a f s)) (latency : Nat) (bytes : List Byte) (hs : P s) :
    P (statusFrame latency bytes s) := by
  unfold statusFrame
  split
  · exact hs
  · split
    · exact hs
    · split
      · exact hP calm_closeSlot hs
      · next e he =>
        refine takeSlot_keeps hP (hseed _) ?_ (hP calm_closeSlot hs) _ _
        unfold slotEntry at he
        split at he
        · cases he
        · exact fun hn => by cases he.symm.trans hn

theorem windowExpiry_keeps {P : State → Prop} (hP : ∀ {s t}, Calm s t → P s → P t)
    (hseed : ∀ a s f, (s.axis a).state = .rest → P s → P (seed a f s)) (hs : P s) : P (windowExpiry s) := by
  unfold windowExpiry
  split
  · exact hs
  · split
    · exact hP calm_closeSlot hs
    · next e he =>
      refine takeSlot_keeps hP (hseed _) ?_ (hP calm_closeSlot hs) _ _
      unfold slotEntry at he
      split at he
      · cases he
      · exact fun hn => by cases he.symm.trans hn

/-! ### Station notices (R5, R6) -/

/-- An OFFLINE axis that becomes REST is seeded (R5). -/
theorem agree_stationOnline (f : Nat) (h : RecordsAgree s) : RecordsAgree (stationOnline a f s) := by
  unfold stationOnline
  split
  · next ho =>
    obtain ⟨hc, he⟩ := h.configured (a := a) (by simp [ho])
    have hn := h.loaded (a := a) (by simp [ho])
    obtain ⟨cfg, hcfg⟩ := Option.ne_none_iff_exists'.1 hc
    have hcfg' : ((setAxisState a .rest s).axis a).config = some cfg := by rw [axis_setAxisState, if_pos rfl]; exact hcfg
    unfold seed
    rw [hcfg']
    refine (calm_noteWrite false).agree (h.change a hn ?_ (fun b hb => ⟨?_, rfl⟩))
    · refine axisAgrees_of_live ?_ ?_ he ?_ ?_ <;>
        simp [axis_setAxisState, AxisState.live, hcfg]
    · rw [axis_updAxis, if_neg hb.symm, axis_setAxisState, if_neg hb.symm]
  · exact h

/-- A REST axis that becomes OFFLINE loses its setpoint (R6). -/
theorem agree_stationLost (h : RecordsAgree s) : RecordsAgree (stationLost a s) := by
  unfold stationLost
  split
  · next hr =>
    obtain ⟨hc, he⟩ := h.configured (a := a) (by simp [hr])
    have hn := h.loaded (a := a) (by simp [hr])
    refine (calm_noteWrite false).agree (h.change a hn ?_ (fun b hb => ⟨?_, rfl⟩))
    · have he' : s.station a ≠ none := he
      simp [AxisAgrees, hc, he', setAxisState]
    · rw [axis_updAxis, if_neg hb.symm, axis_setAxisState, if_neg hb.symm]
  · exact (calm_applyFault _).agree h
  · exact (calm_applyFault _).agree h
  all_goals exact h

/-- What holds after every calm change and after the notices' own changes holds after the commands that take them. -/
theorem takeOnlineNotice_keeps {P : State → Prop} (hP : ∀ {s t}, Calm s t → P s → P t)
    (hact : ∀ s f, P s → P (stationOnline a f s)) (hs : P s) : P (takeOnlineNotice a s) := by
  unfold takeOnlineNotice
  split
  · split
    · split
      · exact hs
      · exact hact _ _ (hP (calm_updMessages _) hs)
    · exact hs
  · exact hs

theorem takeLostNotice_keeps {P : State → Prop} (hP : ∀ {s t}, Calm s t → P s → P t)
    (hact : ∀ s, P s → P (stationLost a s)) (hs : P s) : P (takeLostNotice a s) := by
  unfold takeLostNotice
  split
  · split
    · exact hact _ (hP (calm_updMessages _) hs)
    · exact hs
  · exact hs

/-! ### Axis requests (R16, R17, R19) -/

theorem agree_returnToRest (h : RecordsAgree s) (hl : (s.axis a).state.live) : RecordsAgree (returnToRest a s) := by
  have h1 : RecordsAgree (setAxisState a .rest s) := (calm_setAxisState _ hl (by simp)).agree h
  unfold returnToRest
  dsimp only
  split
  · exact agree_seed _ h1 (by simp [axis_setAxisState, AxisState.live])
  · exact h1

/-- What holds before CLEAR FAULT and after its own change holds after its answer. -/
theorem clearFault_keeps {P : State → Prop} {axis : Byte} (hs : P s)
    (hact : ∀ a, (s.axis a).state.isFaulted = true → P (returnToRest a s)) : P (clearFault axis s).1 := by
  unfold clearFault
  split
  · exact hs
  · split
    · next h =>
      split_ifs
      · exact hs
      · exact hs
      · exact hs
      · exact hact _ (by rw [h]; rfl)
    all_goals exact hs

theorem isFaulted_live {st : AxisState} (h : st.isFaulted = true) : st.live := by
  cases st <;> simp_all [AxisState.isFaulted, AxisState.live]

theorem axis_replaceEntry (e : Option StationEntry) : (replaceEntry a e s).axis b = s.axis b := rfl

theorem station_replaceEntry (e : Option StationEntry) :
    (replaceEntry a e s).station b = if a = b then e else s.station b := station_setStation _ _ _ _

theorem axis_noteWrite (byMotion : Bool) : (noteWrite byMotion a s).axis b = s.axis b := by
  rw [State.axis, noteWrite_axes]; rfl

/-- The record of the axis that a new station address leaves (R4). -/
theorem axis_installConfig (c : AxisConfig) : (installConfig a c s).axis b = if a = b then { s.axis a with
    config := some c, state := .offline, setpoint := none, previous := none, feedback := none, load := none
    loadWarning := false, arriving := false } else s.axis b := by
  rw [installConfig, axis_replaceEntry, dropSetpoint, axis_noteWrite, axis_updAxis, axis_updAxis_same, axis_updAxis]
  split <;> rfl

theorem station_installConfig (c : AxisConfig) :
    (installConfig a c s).station b = if a = b then some (StationEntry.new c.station) else s.station b := by
  rw [installConfig, station_replaceEntry]
  split
  · rfl
  · obtain ⟨_, _, _, h⟩ := noteWrite_shape ((s.updAxis a (fun ax => { ax with
      config := some c, state := .offline, feedback := none, load := none, loadWarning := false
      arriving := false })).updAxis a (fun ax => { ax with setpoint := none, previous := none })) a false
    rw [dropSetpoint, h]
    rfl

theorem loader_installConfig (c : AxisConfig) : (installConfig a c s).loader = s.loader := by
  obtain ⟨_, _, _, h⟩ := noteWrite_shape ((s.updAxis a (fun ax => { ax with
    config := some c, state := .offline, feedback := none, load := none, loadWarning := false
    arriving := false })).updAxis a (fun ax => { ax with setpoint := none, previous := none })) a false
  rw [installConfig, dropSetpoint, h]
  rfl

theorem agree_installConfig (c : AxisConfig) (hn : s.loader.state ≠ .loading) (h : RecordsAgree s) :
    RecordsAgree (installConfig a c s) := by
  refine h.change a (by rw [loader_installConfig]; exact hn) ?_ (fun b hb => ?_)
  · rw [axis_installConfig, if_pos rfl, station_installConfig, if_pos rfl]
    simp [AxisAgrees]
  · rw [axis_installConfig, if_neg hb.symm, station_installConfig, if_neg hb.symm]
    exact ⟨rfl, rfl⟩

theorem agree_configureAxis (c : AxisConfig) (hn : s.loader.state ≠ .loading) (h : RecordsAgree s) :
    RecordsAgree (configureAxis a c s) := by
  unfold configureAxis
  split
  · next old hold =>
    split
    · refine h.change a hn ?_ (fun b hb => ⟨by rw [axis_updAxis, if_neg hb.symm], rfl⟩)
      obtain ⟨hc, he, hv, hp⟩ := h.1 a
      have hu : (s.axis a).state ≠ .unconfigured := fun e => by rw [hc.2 e] at hold; cases hold
      rw [axis_updAxis_same, State.updAxis_get_station]
      exact ⟨by simp [hu], he, hv, hp⟩
    · exact agree_installConfig c hn h
  · exact agree_installConfig c hn h

theorem axis_removeAxis : (removeAxis a s).axis b =
    if a = b then { Axis.reset with lock := (s.axis a).lock, owner := (s.axis a).owner } else s.axis b := by
  show (s.updAxis a _).axis b = _
  rw [axis_updAxis]

theorem station_removeAxis : (removeAxis a s).station b = if a = b then none else s.station b :=
  station_replaceEntry _

theorem agree_removeAxis (hn : s.loader.state ≠ .loading) (h : RecordsAgree s) : RecordsAgree (removeAxis a s) := by
  refine h.change a hn ?_ (fun b hb => ?_)
  · rw [axis_removeAxis, if_pos rfl, station_removeAxis, if_pos rfl]
    simp [AxisAgrees, Axis.reset]
  · rw [axis_removeAxis, if_neg hb.symm, station_removeAxis, if_neg hb.symm]
    exact ⟨rfl, rfl⟩

/-- What holds before a removal and after its own change on an unowned axis holds after the answer (R17). -/
theorem putAxisRemove_keeps {P : State → Prop} {axis : Byte} (hs : P s)
    (hact : ∀ a, (s.axis a).owner = none → P (removeAxis a s)) : P (putAxisRemove axis s).1 := by
  unfold putAxisRemove
  split
  · exact hs
  · split
    · exact hs
    · next h =>
      simp only [Bool.or_eq_true, not_or, Bool.not_eq_true, Option.isSome_eq_false_iff, Option.isNone_iff_eq_none] at h
      exact hact _ h.1.2

/-- What holds before PUT AXIS, after a removal, and after an accepted configuration holds after the answer (R16). -/
theorem putAxis_keeps {P : State → Prop} {axis : Byte} {r : RawConfig} (hs : P s)
    (hremove : ∀ a, (s.axis a).owner = none → P (removeAxis a s))
    (hact : ∀ a c, (s.axis a).owner = none → (s.axis a).state.refusesPut = false → c.valid = true →
      leavesSetpointOutside (s.axis a) c = false → P (configureAxis a c s)) : P (putAxis axis r s).1 := by
  unfold putAxis
  split
  · exact putAxisRemove_keeps hs hremove
  · split
    · exact hs
    · split
      · exact hs
      · next h =>
        simp only [Bool.or_eq_true, not_or, Bool.not_eq_true, Option.isSome_eq_false_iff, Option.isNone_iff_eq_none] at h
        split
        · exact hs
        · next hcheck =>
          split
          · exact hs
          · next hfree =>
            simp only [Bool.or_eq_true, not_or, Bool.not_eq_true] at hfree
            unfold checkConfig at hcheck
            split at hcheck
            · next hv => exact hact _ _ h.1.2 h.2 (by rw [← Option.some.inj hcheck]; exact hv.2) hfree.2
            · cases hcheck

/-! ### Master clear, pin reset and the load -/

theorem records_masterCleared : RecordsKept s (masterCleared s) := by
  refine ⟨fun a => ?_, fun _ => .rfl, fun e => ⟨e, fun p e => ?_⟩⟩
  · simp only [masterCleared, State.axis, Table.get_map]
    exact ⟨rfl, rfl, .rfl, .rfl, .rfl⟩
  · simp only [masterCleared, State.port, Table.get_map]
    exact e

theorem masterClear_keeps {P : State → Prop} (hs : P s)
    (hact : (∀ l, (s.lane l).state.refusesMaster = false) → P (masterCleared s)) : P (masterClear s).1 := by
  unfold masterClear
  split
  · exact hs
  · next h =>
    refine hact (fun l => ?_)
    simp only [Bool.or_eq_true, not_or, Bool.not_eq_true, Table.cells_eq, List.any_map, List.any_eq_false] at h
    exact h.2 l (List.mem_finRange l)

theorem reset_axis : State.reset.axis a = Axis.reset := Table.get_fill _ _

theorem reset_lane : State.reset.lane l = Lane.reset := Table.get_fill _ _

theorem reset_station : State.reset.station a = none := Table.get_fill _ _

theorem reset_stop : State.reset.stop a = none := Table.get_fill _ _

theorem reset_context : State.reset.context l = none := Table.get_fill _ _

theorem reset_slot {n : StepNo} : State.reset.cues.slots.get n = none := Table.get_fill _ _

theorem reset_direct : State.reset.cues.privates.get l = none := Table.get_fill _ _

theorem reset_port {p : Console} : State.reset.port p = Port.reset := Table.get_fill _ _

theorem agree_reset : RecordsAgree State.reset := by
  refine ⟨fun a => ?_, fun _ => ⟨fun a => ?_, fun p => ?_⟩⟩
  · rw [reset_axis, reset_station]; simp [Axis.reset]
  · rw [reset_axis]; rfl
  · rw [reset_port]; rfl

theorem agree_pinReset (written : Nat) (s : State) : RecordsAgree (pinReset written s) := agree_reset

theorem LoadOutcome.state_ne_loading (o : LoadOutcome) : o.state ≠ .loading := by
  cases o <;> simp [LoadOutcome.state]

/-- The load installs axes in a part that has none (R188). -/
theorem agree_install (c : Configuration) (h : RecordsAgree s) (hl : s.loader.state = .loading) (m : Memory)
    (o : LoadOutcome) :
    RecordsAgree (install c { s with memory := m, loader := { s.loader with state := o.state } }) := by
  refine ⟨fun a => ?_, fun e => absurd e o.state_ne_loading⟩
  have ha := h.1 a
  have hu : (s.axes.get a).state = .unconfigured := (h.2 hl).1 a
  simp only [State.axis, State.station, hu] at ha
  simp only [install, State.axis, State.station, Table.get_mapIdx]
  split
  · simpa using ha.2.2
  · simpa [hu] using ha

theorem agree_completeLoad (found : List (Nat × Byte)) (h : RecordsAgree s) : RecordsAgree (completeLoad found s) := by
  unfold completeLoad
  split
  · next hl => exact calm_offerAll.agree ((calm_emit _).agree (agree_install _ h hl _ _))
  · exact h

end Sys2Proof.Machine

namespace Sys2Proof.Machine

variable {s t u : State} {l k : LaneId} {a b : AxisId}

/-- A law holds in a state whose records agree, and each kind of change that a command makes of that state keeps it: a calm
one, the acts of a lane, a seed or a station notice, and the changes that belong to one command alone. -/
structure LawKept (P : State → Prop) (s : State) : Prop where
  agree : RecordsAgree s
  now : P s
  calm : ∀ {u v}, Calm u v → P u → P v
  seed : ∀ {a u} f, (u.axis a).state = .rest → P u → P (seed a f u)
  online : ∀ {a u} f, P u → P (stationOnline a f u)
  lost : ∀ {a u}, P u → P (stationLost a u)
  acts : ∀ {l t}, LaneActs l s t → P t
  serves : ∀ {l t}, s.loader.state ≠ .loading → LaneServes l s t → P t
  reset : ∀ written, P (pinReset written s)
  load : ∀ found, P (completeLoad found s)
  work : ∀ l, P (generatorWork l s)
  stop : ∀ a, P (stopStep a s)
  release : ∀ l, P (endRelease l s)
  plan : P (completePlan s)
  result : ∀ l, P (takeResult l s)
  rest : ∀ a, (s.axis a).state.live → P (returnToRest a s)
  configure : ∀ {a c}, s.loader.state ≠ .loading → (s.axis a).owner = none → (s.axis a).state.refusesPut = false →
    c.valid = true → leavesSetpointOutside (s.axis a) c = false → P (configureAxis a c s)
  remove : ∀ {a}, s.loader.state ≠ .loading → (s.axis a).owner = none → P (removeAxis a s)
  clear : P (masterCleared s)

/-- A law that each kind of change keeps, every command keeps. -/
theorem LawKept.exec {P : State → Prop} {i : Instr} (h : LawKept P s) (e : exec i s = .next t) : P t := by
  have calm {t : State} (hc : Calm s t) : P t := h.calm hc h.now
  have serves {p : Console} {tag kind : Byte} {self : Instr} {act : State → State × Answer}
      (hact : s.loader.state ≠ .loading → P (act s).1) : P (serve p tag kind self act s) :=
    serve_keeps h.calm h.agree h.now hact
  cases i with
  | pinReset written => cases e; exact h.reset written
  | imageLoadCompletion found => cases e; exact h.load found
  | saveCompletion bad => cases e; exact calm (calm_completeSave bad s)
  | periodStart => cases e; exact calm (calm_beginPeriod s)
  | motionGeneratorWork l => cases e; exact h.work l
  | stopTrajectoryStep a => cases e; exact h.stop a
  | arrival a => cases e; exact calm (calm_takeArrival a s)
  | stepCompletion l => cases e; exact h.acts (laneActs_completeStep l s)
  | followExpiry l => cases e; exact h.acts (laneActs_followCount l s)
  | linkedDecrement l => cases e; exact h.acts (laneActs_linkedCount l s)
  | releaseTimeout l => cases e; exact h.acts (laneActs_expireRelease l s)
  | releaseEnd l => cases e; exact h.release l
  | trackingMark a => cases e; exact calm (calm_takeMark a s)
  | planCompletion => cases e; exact h.plan
  | planWithdrawal l => cases e; exact calm (calm_planWithdrawal l s)
  | planResult l => cases e; exact h.result l
  | faultRequest a cause => cases e; exact calm (calm_takeFaultRequest a cause s)
  | faultNotice l a => cases e; exact h.acts (laneActs_takeNotice l a s)
  | interlockTrip l n => cases e; exact h.acts (laneActs_takeDelivery l _ _ (laneActs_interlockTrip l n) s)
  | emergency l => cases e; exact h.acts (laneActs_takeDelivery l _ _ (laneActs_emergencyLane l) s)
  | enableHalt l c => cases e; exact h.acts (laneActs_takeDelivery l _ _ (laneActs_enableLoss l c) s)
  | holdAssertion l n => cases e; exact h.acts (laneActs_takeDelivery l _ _ (laneActs_holdAssertion l n) s)
  | rawLevelChange line high => cases e; exact calm (calm_setLine line _)
  | qualifiedChange line => cases e; exact calm (calm_qualify line)
  | driveRound => cases e; exact calm (calm_driveRound s)
  | statusFrame latency bytes => cases e; exact statusFrame_keeps h.calm (fun _ _ f => h.seed f) latency bytes h.now
  | replyWindowExpiry => cases e; exact windowExpiry_keeps h.calm (fun _ _ f => h.seed f) h.now
  | stationOnlineNotice a => cases e; exact takeOnlineNotice_keeps h.calm (fun _ f => h.online f) h.now
  | stationLostNotice a => cases e; exact takeLostNotice_keeps h.calm (fun _ => h.lost) h.now
  | supervisorReplyCheck a => cases e; exact calm (calm_takeReplyCheck a s)
  | consoleFrame p => cases e; exact calm (calm_judgeFrame p s)
  | frameTimeout p => cases e; exact calm (calm_frameTimeout p s)
  | replySent p => cases e; exact calm (calm_replySent p s)
  | eventPosted => cases e; exact calm calm_offerOldest
  | byteReceived p b fault => cases e; exact calm (calm_byteReceived p b fault s)
  | take p => cases e; exact serves (fun _ => onLane_keeps h.now (fun l => calm (calm_takeLane p l s)))
  | yield => cases e; exact serves (fun _ => onOwnLane_keeps h.now (fun l => calm (calm_yieldLane l s)))
  | load => cases e; exact serves (fun hn => onOwnLane_keeps h.now (fun l => h.serves hn (laneServes_loadLane _ l s)))
  | go p => cases e; exact serves (fun hn => onOwnLane_keeps h.now (fun l => h.serves hn (laneServes_goLane p l s)))
  | halt => cases e; exact serves (fun hn => onLane_keeps h.now (fun l => h.serves hn (laneServes_haltRequest l s)))
  | clearLane => cases e; exact serves (fun hn => onOwnLane_keeps h.now (fun l => h.serves hn (laneServes_clearLane l s)))
  | setRate => cases e; exact serves (fun _ => onOwnLane_keeps h.now (fun l => calm (calm_setRate _ l s)))
  | setRepeat => cases e; exact serves (fun _ => onOwnLane_keeps h.now (fun l => calm (calm_setRepeat _ l s)))
  | setHoldLine => cases e; exact serves (fun _ => onOwnLane_keeps h.now (fun l => calm (calm_setHoldLine _ l s)))
  | direct p =>
    cases e
    exact serves (fun hn => onOwnLane_keeps h.now (fun l => h.serves hn (laneServes_directLane p _ _ _ l s)))
  | getLane => cases e; exact serves (fun _ => onLane_keeps h.now (fun _ => h.now))
  | putStep => cases e; exact serves (fun _ => calm (calm_putStep _ _ s))
  | dropStep => cases e; exact serves (fun _ => calm (calm_dropStep _ s))
  | getStep => cases e; exact serves (fun _ => by rw [getStep_state]; exact h.now)
  | putAxis =>
    cases e
    exact serves (fun hn => putAxis_keeps h.now (fun _ => h.remove hn)
      (fun _ _ => h.configure hn))
  | putAxisRemove => cases e; exact serves (fun hn => putAxisRemove_keeps h.now (fun _ => h.remove hn))
  | getAxis => cases e; exact serves (fun _ => by rw [getAxis_state]; exact h.now)
  | lockSet => cases e; exact serves (fun _ => calm (calm_lockSet _ _ s))
  | clearFault => cases e; exact serves (fun _ => clearFault_keeps h.now (fun a hf => h.rest a (isFaulted_live hf)))
  | putPair => cases e; exact serves (fun _ => calm (calm_putPair _ _ _ _ s))
  | dropPair => cases e; exact serves (fun _ => calm (calm_dropPair _ s))
  | getStation => cases e; exact serves (fun _ => calm (calm_getStation _ _ s))
  | poll p => cases e; exact serves (fun _ => calm (calm_updPort _ (fun _ e => e)))
  | fetch p => cases e; exact serves (fun _ => calm (calm_updPort _ (fun _ e => e)))
  | setFilter p => cases e; exact serves (fun _ => calm (calm_setFilter p _ s))
  | eStop p => cases e; exact serves (fun _ => calm (calm_setLatch _))
  | clearEStop p => cases e; exact serves (fun _ => calm (calm_clearEStop p s))
  | masterClear => cases e; exact serves (fun _ => masterClear_keeps h.now (fun _ => h.clear))
  | saveImage p => cases e; exact serves (fun _ => calm (calm_saveImage p s))

/-- What follows from a law at once, and after every command from a law that the queue does not touch, holds after every
step. -/
theorem step_leads {P Q : State → Prop} (hqueue : ∀ {q s}, P s → P (s.withPending q)) (hidle : ∀ {s}, P s → Q s)
    (hexec : ∀ {i s t}, P s → exec i s = .next t → Q t) (h : P s) (e : step s = .next t) : Q t := by
  unfold step at e
  split at e
  · cases e; exact hidle h
  · exact hexec (hqueue h) e

/-- Every command keeps the axis records agreed. -/
theorem exec_keeps_agree {i : Instr} (h : RecordsAgree s) (e : exec i s = .next t) : RecordsAgree t :=
  LawKept.exec
    { agree := h
      now := h
      calm := Calm.agree
      seed := fun f hs hu => agree_seed f hu (by simp [AxisState.live, hs])
      online := agree_stationOnline
      lost := agree_stationLost
      acts := (·.agree h)
      serves := fun _ hl => hl.agree h
      reset := fun written => agree_pinReset written s
      load := fun found => agree_completeLoad found h
      work := fun l => agree_generatorWork l h
      stop := fun a => agree_stopStep a h
      release := fun l => (calmBut_endRelease l s).records.agree h
      plan := (records_completePlan s).agree h
      result := fun l => (records_takeResult l h).agree h
      rest := fun _ => agree_returnToRest h
      configure := fun hn _ _ _ _ => agree_configureAxis _ hn h
      remove := fun hn _ => agree_removeAxis hn h
      clear := records_masterCleared.agree h } e

/-- Settles O58: each command is calm, a turn of one lane, or a change of one axis together with its entry. -/
theorem every_step_keeps_axis_records_agreed : Obligations.every_step_keeps_axis_records_agreed :=
  fun _ _ => step_leads (calm_withPending _).agree id exec_keeps_agree

end Sys2Proof.Machine

namespace Sys2Proof.Machine

variable {s t u : State} {l k : LaneId} {a b : AxisId}

/-! ### Positions inside the soft limits (R12, R88, R92, R94, R108, R118) -/

/-- A target clamped into limits in order lies inside them (R88). -/
theorem clampedTarget_inside {low high : Nat} (h : low < high) (target : Nat) :
    low ≤ clampedTarget low high target ∧ clampedTarget low high target ≤ high := by
  unfold clampedTarget
  split_ifs <;> omega

/-- A seeded value lies inside the limits (R12). -/
theorem seedValue_inside {c : AxisConfig} (h : c.low < c.high) (f : Nat) : insideLimits c (seedValue c f) := by
  unfold insideLimits seedValue Config.unit
  split_ifs <;> omega

/-- A stop step from inside the limits ends inside them (R118). -/
theorem stopTarget_inside {c : AxisConfig} {v : Nat} (h : c.low < c.high) (hv : insideLimits c v) (dir : Direction)
    (movement : Nat) : insideLimits c (stopTarget c dir v movement).1 := by
  unfold insideLimits at *
  unfold stopTarget Config.unit
  cases dir
  case none => exact hv
  all_goals
    dsimp only
    split_ifs <;> dsimp only <;> omega

/-- The ramp's share of the distance is no more than the plan's cruise over the rest of the span: v * r / 2 within d. -/
theorem ramp_distance {v d r span : Nat} (hr : 2 * r ≤ span) (hd : v * (span - r) ≤ d) (x : Nat) (hx : x ≤ 256 * (span - 2 * r)) :
    v * r / 2 + v * x / 256 ≤ d := by
  obtain ⟨k, rfl⟩ := Nat.exists_eq_add_of_le hr
  have hsub : 2 * r + k - r = r + k := by omega
  have hx' : x ≤ 256 * k := by omega
  rw [hsub, Nat.mul_add] at hd
  have h1 : v * r / 2 ≤ v * r := Nat.div_le_self _ _
  have h2 : v * x / 256 ≤ v * k := by
    calc v * x / 256 ≤ v * (256 * k) / 256 := Nat.div_le_div_right (Nat.mul_le_mul_left v hx')
      _ = v * k := by rw [Nat.mul_left_comm, Nat.mul_div_cancel_left _ (by decide)]
  omega

/-- The distance covered never passes the distance of the plan (Table 6-4). -/
theorem covered_le {v d r span : Nat} (hr : 2 * r ≤ span) (hd : v * (span - r) ≤ d) (sr : Int) :
    covered v d r span sr ≤ d := by
  unfold covered
  split
  · exact Nat.zero_le d
  · dsimp only
    generalize sr.toNat = n
    split_ifs with h1 h2 h3
    · have hn : n * n ≤ 256 * r * (256 * r) := Nat.mul_le_mul h1 h1
      have hramp := ramp_distance hr hd 0 (Nat.zero_le _)
      calc v * (n * n) / (2 * r * 65536)
          ≤ v * (256 * r * (256 * r)) / (2 * r * 65536) := Nat.div_le_div_right (Nat.mul_le_mul_left v hn)
        _ ≤ v * r / 2 := by
            rcases Nat.eq_zero_or_pos r with rfl | hpos
            · simp
            · rw [show v * (256 * r * (256 * r)) = (v * r) * (r * 65536) by ring,
                show 2 * r * 65536 = 2 * (r * 65536) by ring]
              exact le_of_eq (Nat.mul_div_mul_right _ _ (by positivity))
        _ ≤ d := by simpa using hramp
    · exact ramp_distance hr hd _ (by omega)
    · exact Nat.sub_le _ _
    · exact le_refl d

/-- Where a plan entry runs between two positions inside the limits, so does its axis (R108). -/
theorem position_inside {c : AxisConfig} {m : PlanMember} {r : Nat} {sr : Int} (hs : insideLimits c m.start)
    (hup : m.direction = .up → m.start + m.distance ≤ c.high * 65536)
    (hdown : m.direction = .down → c.low * 65536 + m.distance ≤ m.start)
    (hspan : 2 * r ≤ m.span ∧ m.cruise * (m.span - r) ≤ m.distance) :
    insideLimits c (m.position (covered m.cruise m.distance r m.span sr)) := by
  have hp := covered_le hspan.1 hspan.2 sr
  unfold insideLimits at *
  unfold PlanMember.position
  cases hdir : m.direction
  case up => have := hup hdir; dsimp only; omega
  case down => have := hdown hdir; dsimp only; omega
  case none => exact hs

/-- A member travels up from below its clamped target, and down from no lower than it (R88). -/
theorem direction_side {m : MemberInput} {v : Nat} (hv : m.setpoint = some v) :
    (m.direction = .up → v < m.clamped * Config.unit) ∧ (m.direction = .down → m.clamped * Config.unit ≤ v) := by
  unfold MemberInput.direction
  rw [hv]
  dsimp only
  split_ifs with h1
  · exact ⟨fun _ => h1, fun e => by cases e⟩
  · simpa using Nat.le_of_not_lt h1
  · simp

/-- A distance to a target inside the limits ends inside them, whatever the unit. -/
theorem travel_inside {low high target v d unit : Nat} (h : low ≤ target ∧ target ≤ high)
    (hd : d = (((target * unit : Nat) : Int) - (v : Int)).natAbs) :
    (v < target * unit → v + d ≤ high * unit) ∧ (target * unit ≤ v → low * unit + d ≤ v) := by
  have hlow := Nat.mul_le_mul_right unit h.1
  have hhigh := Nat.mul_le_mul_right unit h.2
  generalize target * unit = goal at *
  omega

/-- The entry that the arithmetic makes of a member inside its limits (R88 to R94). -/
theorem planMember_inside {j : PlanJob} {m : MemberInput} (hm : m ∈ j.members) {c : AxisConfig} (hc : c.low < c.high)
    (hlow : m.low = c.low) (hhigh : m.high = c.high) {v : Nat} (hv : m.setpoint = some v) (hin : insideLimits c v) :
    let x := planMember j.ramp j.duration m
    insideLimits c x.start ∧ (x.direction = .up → x.start + x.distance ≤ c.high * 65536) ∧
      (x.direction = .down → c.low * 65536 + x.distance ≤ x.start) ∧
      (x.distance ≠ 0 → 2 * j.ramp ≤ x.span ∧ x.cruise * (x.span - j.ramp) ≤ x.distance) := by
  have hclamp := clampedTarget_inside hc m.target
  obtain ⟨hup, hdown⟩ := direction_side hv
  have hdist := distance_eq m
  rw [travel, hv, hlow, hhigh] at hdist
  rw [clamped_eq, hlow, hhigh, Config.unit] at hup hdown
  generalize clampedTarget c.low c.high m.target = target at *
  obtain ⟨hhigh', hlow'⟩ := travel_inside hclamp hdist
  unfold insideLimits at *
  dsimp only [planMember, MemberInput.start]
  simp only [hv, Option.getD_some]
  refine ⟨hin, fun e => hhigh' (hup e), fun e => hlow' (hdown e), fun hne => ?_⟩
  · have hmoves : m.moves = true := by simpa [MemberInput.moves] using hne
    have hany : j.members.any (·.moves) = true := List.any_eq_true.2 ⟨m, hm, hmoves⟩
    have hdur : m.delay + m.minimumSpan j.ramp ≤ j.duration := by
      rw [PlanJob.duration, if_pos hany]
      exact (largest_foldl _ j.tn).2.1 _ (List.mem_map_of_mem (List.mem_filter.2 ⟨hm, hmoves⟩))
    have hmin : 2 * j.ramp ≤ m.minimumSpan j.ramp := Nat.le_max_left _ _
    simp only [hmoves, if_true]
    exact ⟨by omega, Nat.div_mul_le_self _ _⟩

end Sys2Proof.Machine

namespace Sys2Proof.Machine

variable {s t u : State} {l k : LaneId} {a b : AxisId}

/-! ### The clauses of SetpointsInside -/

/-- Every axis has its limits in order and its setpoint inside them. -/
def LimitsHold (s : State) : Prop :=
  ∀ a c, (s.axis a).config = some c → c.low < c.high ∧ ∀ v, (s.axis a).setpoint = some v → insideLimits c v

/-- What SetpointsInside asks of one lane. -/
structure LaneInside (s : State) (l : LaneId) : Prop where
  plan : ∀ p, ((s.lane l).state = .releasing ∨ (s.lane l).state = .running) → (s.lane l).plan = some p →
    ∀ m ∈ p.members, EntryInside s l p.ramp m
  result : ∀ p, (s.lane l).state = .planning → (s.lane l).planResult = some (.ok p) →
    ∀ m ∈ p.members, EntryInside s l p.ramp m
  job : ∀ j, s.planner.inProgress = some j → j.withdrawn = false → j.lane = l → (s.lane l).state = .planning →
    ∀ m ∈ j.members, (s.axis m.axis).owner = some l ∧
      ∀ c, (s.axis m.axis).config = some c → m.low = c.low ∧ m.high = c.high ∧
        ∀ v, m.setpoint = some v → insideLimits c v
  step : ∀ st, (s.lane l).state = .planning → currentStep s l = some st →
    ∀ m ∈ st.moves, (s.axis m.axis).owner = some l

theorem setpointsInside_iff : SetpointsInside s ↔
    LimitsHold s ∧ (∀ l, LaneInside s l) ∧ (s.loader.state = .loading → ∀ l : LaneId, (s.lane l).state = .idle) := by
  constructor
  · rintro ⟨hlim, hplan, hres, hjob, hstep, hload⟩
    exact ⟨hlim, fun l => ⟨hplan l, hres l, fun j e hw hl hs => by subst hl; exact hjob j e hw hs, hstep l⟩, hload⟩
  · rintro ⟨hlim, hlane, hload⟩
    exact ⟨hlim, fun l => (hlane l).plan, fun l => (hlane l).result, fun j e hw hs => (hlane j.lane).job j e hw rfl hs,
      fun l => (hlane l).step, hload⟩

theorem EntryInside.kept {r : Nat} {m : PlanMember} (h : EntryInside s l r m) (ho : OwnedKept l s t) :
    EntryInside t l r m := by
  obtain ⟨howner, hcfg⟩ := h
  obtain ⟨howner', hsame⟩ := ho _ howner
  exact ⟨howner', fun c hc => hcfg c (hsame ▸ hc)⟩

theorem LaneInside.kept (h : LaneInside s l) (hk : LaneKept l s t) : LaneInside t l where
  plan p hs hp m hm := (h.plan p (hk.state ▸ hs) (hk.plan ▸ hp) m hm).kept hk.owned
  result p hs hp m hm := (h.result p (hk.state ▸ hs) (hk.result ▸ hp) m hm).kept hk.owned
  job j e hw hl hs m hm := by
    obtain ⟨ho, hc⟩ := h.job j (hk.job j e hw hl) hw hl (hk.state ▸ hs) m hm
    obtain ⟨ho', hsame⟩ := hk.owned _ ho
    exact ⟨ho', fun c e => hc c (hsame ▸ e)⟩
  step st hs hst m hm := by
    have hs' : (s.lane l).state = .planning := hk.state ▸ hs
    exact (hk.owned _ (h.step st hs' (hk.step hs' ▸ hst) m hm)).1

/-- Nothing is asked of a lane outside the motion states. -/
theorem LaneInside.of_rest (h : (s.lane l).state.motion = false) : LaneInside s l := by
  have hp : (s.lane l).state ≠ .planning := fun e => by rw [e] at h; cases h
  have hr : ¬ ((s.lane l).state = .releasing ∨ (s.lane l).state = .running) := by
    rintro (e | e) <;> rw [e] at h <;> cases h
  exact ⟨fun _ e => absurd e hr, fun _ e => absurd e hp, fun _ _ _ _ e => absurd e hp, fun _ e => absurd e hp⟩

theorem LimitsHold.kept (h : LimitsHold s) (hk : RecordsKept s t) : LimitsHold t := fun a c hc => by
  rw [(hk.axis a).config] at hc
  rw [(hk.axis a).setpoint]
  exact h a c hc

/-! ### What keeps setpoints inside -/

/-- Only lanes that are not IDLE act, and so only when no image loads. -/
theorem SetpointsInside.loaded (h : SetpointsInside s) (hs : (s.lane l).state ≠ .idle) : s.loader.state ≠ .loading :=
  fun e => hs ((setpointsInside_iff.1 h).2.2 e l)

/-- Every lane is kept and the axes stay inside their limits. -/
theorem SetpointsInside.of_lanes (h : SetpointsInside s) (hlim : LimitsHold t) (hk : ∀ k, LaneKept k s t)
    (hload : t.loader.state = .loading → s.loader.state = .loading) : SetpointsInside t := by
  obtain ⟨-, hlane, hidle⟩ := setpointsInside_iff.1 h
  exact setpointsInside_iff.2 ⟨hlim, fun l => (hlane l).kept (hk l), fun e l => (hk l).state ▸ hidle (hload e) l⟩

/-- One lane turns, as long as it is left inside. -/
theorem SetpointsInside.of_lane (h : SetpointsInside s) (hn : s.loader.state ≠ .loading) (hc : CalmBut l s t)
    (hl : LaneInside t l) : SetpointsInside t := by
  obtain ⟨hlim, hlane, -⟩ := setpointsInside_iff.1 h
  refine setpointsInside_iff.2 ⟨hlim.kept hc.records, fun k => ?_, fun e => absurd (hc.records.loading e).1 hn⟩
  by_cases hk : k = l
  · rw [hk]; exact hl
  · exact (hlane k).kept (hc.others k hk)

/-- No lane is in motion. -/
theorem SetpointsInside.of_rest (hlim : LimitsHold t) (hr : ∀ l, (t.lane l).state.motion = false)
    (hload : t.loader.state = .loading → ∀ l, (t.lane l).state = .idle) : SetpointsInside t :=
  setpointsInside_iff.2 ⟨hlim, fun l => .of_rest (hr l), hload⟩

theorem Calm.inside (hc : Calm s t) (h : SetpointsInside s) : SetpointsInside t :=
  h.of_lanes ((setpointsInside_iff.1 h).1.kept hc.records) hc.lanes (fun e => (hc.records.loading e).1)

theorem LaneRests.inside (hr : LaneRests l s t) (h : SetpointsInside s) (hn : s.loader.state ≠ .loading) :
    SetpointsInside t :=
  h.of_lane hn hr.calm (.of_rest hr.rests)

/-- The snapshot of a PLANNING lane is of axes it owns, with the limits they have (R84). -/
theorem inside_startService (h : SetpointsInside s) : SetpointsInside (startService s) := by
  obtain e | ⟨l, queue, e⟩ := startService_cases s
  · rw [e]; exact h
  · obtain ⟨hlim, hlane, hidle⟩ := setpointsInside_iff.1 h
    rw [e]
    refine setpointsInside_iff.2 ⟨hlim, fun k => ⟨(hlane k).plan, (hlane k).result, ?_, (hlane k).step⟩, hidle⟩
    rintro j hj - hk hs m hm
    obtain rfl : snapshot s l = j := Option.some.inj hj
    obtain rfl : l = k := hk
    cases hst : currentStep s l with
    | none => simp [snapshot, hst] at hm
    | some st =>
      simp only [snapshot, hst, List.mem_map] at hm
      obtain ⟨x, hx, rfl⟩ := hm
      refine ⟨(hlane l).step st hs hst x hx, fun c hc => ?_⟩
      have hc' : (s.axis x.axis).config = some c := hc
      simp only [memberInput, hc', Option.getD_some]
      exact ⟨trivial, trivial, (hlim _ c hc').2⟩

theorem LanePlans.inside (hl : LanePlans l s t) (h : SetpointsInside s) (hp : PlannerSound s)
    (hs : (s.lane l).state ≠ .planning) (hn : s.loader.state ≠ .loading) : SetpointsInside t := by
  obtain ⟨u, rfl, hc, hu, hr, ho, hj⟩ := hl
  refine inside_startService (h.of_lane hn hc ⟨fun _ e => ?_, fun _ _ e => ?_, fun j e hw hl => ?_, fun st _ => ho st⟩)
  · rw [hu] at e; simp at e
  · rw [hr] at e; cases e
  · obtain ⟨e', hw'⟩ := hj j e hw hl
    subst hl
    exact absurd (hp.2.2.2 j e' hw).1 (not_or.2 ⟨hs, hw'⟩)

theorem LaneServes.inside (hl : LaneServes l s t) (h : SetpointsInside s) (hp : PlannerSound s)
    (hn : s.loader.state ≠ .loading) : SetpointsInside t := by
  cases hl with
  | calm hc => exact hc.inside h
  | rests hr => exact hr.inside h hn
  | turns hs ht => exact ht.elim (·.inside h hn) (·.inside h hp hs hn)

theorem LaneActs.inside (hl : LaneActs l s t) (h : SetpointsInside s) (hp : PlannerSound s) : SetpointsInside t :=
  hl.elim (·.inside h) (fun ⟨hi, hs⟩ => hs.inside h hp (h.loaded hi))

/-- One axis changes within its limits; its owner keeps it, with its configuration, or it has none. -/
theorem SetpointsInside.change (h : SetpointsInside s) (a : AxisId) (hlanes : t.lanes = s.lanes)
    (hjob : t.planner = s.planner) (hcues : t.cues = s.cues) (hload : t.loader = s.loader)
    (hown : (s.axis a).owner = none ∨
      ((t.axis a).owner = (s.axis a).owner ∧ (t.axis a).config = (s.axis a).config))
    (hlim : ∀ c, (t.axis a).config = some c → c.low < c.high ∧ ∀ v, (t.axis a).setpoint = some v → insideLimits c v)
    (hb : ∀ b, b ≠ a → t.axis b = s.axis b) : SetpointsInside t := by
  have hlane (k : LaneId) : t.lane k = s.lane k := by rw [State.lane, hlanes]; rfl
  refine h.of_lanes (fun b c hc => ?_) (fun k => ?_) (fun e => hload ▸ e)
  · by_cases hba : b = a
    · subst hba; exact hlim c hc
    · rw [hb b hba] at hc ⊢
      exact (setpointsInside_iff.1 h).1 b c hc
  · refine ⟨by rw [hlane], by rw [hlane], by rw [hlane], fun _ => currentStep_congr hcues (by rw [hlane]), fun b e => ?_,
      fun j e _ _ => hjob ▸ e⟩
    by_cases hba : b = a
    · subst hba
      obtain hn | ⟨ho, hc⟩ := hown
      · rw [hn] at e; cases e
      · exact ⟨ho.trans e, hc⟩
    · rw [hb b hba]; exact ⟨e, rfl⟩

/-- A setpoint is written inside the limits. -/
theorem inside_write (h : SetpointsInside s) {f : Axis → Axis}
    (hf : f (s.axis a) = { s.axis a with setpoint := (f (s.axis a)).setpoint, previous := (f (s.axis a)).previous
                                         state := (f (s.axis a)).state, arriving := (f (s.axis a)).arriving })
    (hv : ∀ c v, (s.axis a).config = some c → (f (s.axis a)).setpoint = some v → insideLimits c v) :
    SetpointsInside (s.updAxis a f) := by
  refine h.change a rfl rfl rfl rfl (.inr ?_) (fun c hc => ?_) (fun b hb => by rw [axis_updAxis, if_neg hb.symm])
  · rw [axis_updAxis_same, hf]; exact ⟨rfl, rfl⟩
  · rw [axis_updAxis_same, hf] at hc
    rw [axis_updAxis_same]
    exact ⟨((setpointsInside_iff.1 h).1 a c hc).1, fun v => hv c v hc⟩

theorem inside_moveSetpoint {v : Nat} (h : SetpointsInside s)
    (hv : ∀ c, (s.axis a).config = some c → insideLimits c v) : SetpointsInside (moveSetpoint a v s) :=
  (calm_noteWrite true).inside (inside_write h rfl (fun c w hc hw => by cases hw; exact hv c hc))

theorem inside_seed (f : Nat) (h : SetpointsInside s) : SetpointsInside (seed a f s) := by
  unfold seed
  split
  · exact h
  · next cfg hcfg =>
    refine (calm_noteWrite false).inside (inside_write h rfl (fun c v hc hv => ?_))
    cases hv
    cases hcfg.symm.trans hc
    exact seedValue_inside ((setpointsInside_iff.1 h).1 a cfg hcfg).1 f

/-! ### Steps that move a setpoint -/

theorem laneKept_moveSetpoint (v : Nat) : LaneKept k s (moveSetpoint a v s) := by
  refine LaneKept.trans ?_ ((calm_noteWrite true).lanes k)
  refine ⟨rfl, rfl, rfl, fun _ => rfl, fun b e => ?_, fun _ e _ _ => e⟩
  rw [axis_updAxis]
  split
  · next hab => subst hab; exact ⟨e, rfl⟩
  · exact ⟨e, rfl⟩

/-- The lane moves its members along its plan. -/
def RunsPlan (l : LaneId) (plan : PlanRecord) (s : State) : Prop :=
  SetpointsInside s ∧ (s.lane l).state = .running ∧ (s.lane l).plan = some plan

theorem RunsPlan.after {plan : PlanRecord} (h : RunsPlan l plan s) (ht : SetpointsInside t) (hk : LaneKept l s t) :
    RunsPlan l plan t :=
  ⟨ht, hk.state.trans h.2.1, hk.plan.trans h.2.2⟩

theorem runsPlan_evaluateMember {plan : PlanRecord} (time : Nat) {m : PlanMember} (hm : m ∈ plan.moving)
    (h : RunsPlan l plan s) : RunsPlan l plan (evaluateMember l plan.ramp time s m) := by
  obtain ⟨hmem, hd⟩ := List.mem_filter.1 hm
  have hd : m.distance ≠ 0 := by simpa using hd
  obtain ⟨-, hentry⟩ := ((setpointsInside_iff.1 h.1).2.1 l).plan plan (.inr h.2.1) h.2.2 m hmem
  have hmove := h.after (inside_moveSetpoint (v := m.position (covered m.cruise m.distance plan.ramp m.span
      (memberTime time m.delay))) h.1 (fun c hc => by
    obtain ⟨hstart, hup, hdown, hspan⟩ := hentry c hc
    exact position_inside hstart hup hdown (hspan hd))) (laneKept_moveSetpoint _)
  unfold evaluateMember
  dsimp only
  split
  · have hnote := hmove.after ((calm_noteEvaluation (l := l) (a := m.axis) (memberTime time m.delay)).inside hmove.1)
      ((calm_noteEvaluation _).lanes l)
    split
    · exact hnote.after ((calm_arriving true).inside hnote.1) ((calm_arriving true).lanes l)
    · exact hnote
  · exact h

theorem inside_runningWork (c : MotionContext) (plan : PlanRecord) (h : RunsPlan l plan s) :
    SetpointsInside (runningWork l c plan s) := by
  have hcalm (rate time : Nat) : Calm s ((s.updLane l (fun ln => { ln with effectiveRate := rate })).setContext l
      (some { c with profileTime := time, due := false })) :=
    (calm_updLane (fun ln => { ln with effectiveRate := rate }) (fun _ => ⟨rfl, rfl, rfl, rfl⟩)).trans (calm_setContext _)
  have hmoved (rate time : Nat) := (foldl_keeps (xs := plan.moving)
    (fun _ _ hm => runsPlan_evaluateMember (l := l) time hm)
    (h.after ((hcalm rate time).inside h.1) ((hcalm rate time).lanes l))).1
  unfold runningWork
  dsimp only
  split
  · exact (calm_setContext _).inside (hmoved _ _)
  · exact hmoved _ _

theorem inside_generatorWork (l : LaneId) (h : SetpointsInside s) : SetpointsInside (generatorWork l s) := by
  unfold generatorWork
  split
  · exact h
  · split
    · split
      · exact (calm_releaseWork _).inside h
      · next hs hp => exact inside_runningWork _ _ ⟨h, hs, hp⟩
      · exact (calm_setContext _).inside h
    · exact h

theorem inside_endTest (l : LaneId) (h : SetpointsInside s) : SetpointsInside (endTest l s) := by
  unfold endTest
  split
  · next hs =>
    exact (laneRests_changeState ((calmBut_updLane _).trans calmBut_dropContext) rfl).inside h (h.loaded (l := l) (by simp [hs.1]))
  · exact h

theorem inside_stopStep (a : AxisId) (hr : RecordsAgree s) (h : SetpointsInside s) : SetpointsInside (stopStep a s) := by
  unfold stopStep
  split
  · next r cfg v _ hcfg hv =>
    split
    · refine trajectoryStep_keeps Calm.inside (fun l _ => inside_endTest l) (hr.live_iff.2 (by simp [hv]))
        (fun t ht => inside_moveSetpoint (ht.inside h) (fun c hc => ?_))
      rw [(ht.records.axis a).config, hcfg] at hc
      cases hc
      obtain ⟨horder, hin⟩ := (setpointsInside_iff.1 h).1 a cfg hcfg
      exact stopTarget_inside horder (hin v hv) _ _
    · exact h
  · exact h

/-! ### Plan results and plans -/

theorem ownedKept_changeState (st : LaneState) : OwnedKept k s (changeState l st s) := fun a e => by
  rw [changeState_axis]; exact ⟨e, rfl⟩

/-- The lane of an accepted plan owns what it owned and moves along that plan. -/
theorem acceptPlan_lane (plan : PlanRecord) (h : RecordsAgree s) :
    OwnedKept l s (acceptPlan l plan s) ∧ ((acceptPlan l plan s).lane l).plan = some plan ∧
      (((acceptPlan l plan s).lane l).state = .releasing ∨ ((acceptPlan l plan s).lane l).state = .running) := by
  set s1 := (s.updLane l (fun ln => { ln with plan := some plan })).setContext l (some (newContext plan)) with hs1
  set s2 := (plan.moving.map (·.axis)).foldl startMember s1 with hs2
  set s3 := plan.members.foldl (postClipped l) (changeState l .releasing s2) with hs3
  have h1 : OwnedKept l s s1 := fun _ e => ⟨e, rfl⟩
  have h2 : Calm s1 s2 := calm_startMembers _
    (((calmBut_updLane _).trans (calm_setContext (l := l) _).but).records.agree h)
  have h3 : Calm (changeState l .releasing s2) s3 := calm_foldl _ (fun _ _ => calm_postClipped _) _ _
  have howned : OwnedKept l s s3 :=
    ((h1.trans (h2.lanes l).owned).trans (ownedKept_changeState _)).trans (h3.lanes l).owned
  have hplan : (s3.lane l).plan = some plan := by
    rw [(h3.lanes l).plan, changeState_lane, (h2.lanes l).plan]
    simp [hs1]
  have hstate : (s3.lane l).state = .releasing := by rw [(h3.lanes l).state, changeState_state]
  unfold acceptPlan
  dsimp only
  rw [← hs1, ← hs2, ← hs3]
  split
  · refine ⟨howned.trans (fun a e => ?_), ?_, .inr (changeState_state _)⟩
    · rw [enterRunning, changeState_axis]; exact ⟨e, rfl⟩
    · rw [enterRunning, changeState_lane, lane_updLane_same]; exact hplan
  · exact ⟨howned, hplan, .inl hstate⟩

/-- A lane with entries inside for its plan, in RELEASING or RUNNING, is inside. -/
theorem LaneInside.of_plan {plan : PlanRecord} (hs : (s.lane l).state = .releasing ∨ (s.lane l).state = .running)
    (hp : (s.lane l).plan = some plan) (hm : ∀ m ∈ plan.members, EntryInside s l plan.ramp m) : LaneInside s l := by
  have hne : (s.lane l).state ≠ .planning := fun e => by rw [e] at hs; simp at hs
  refine ⟨fun p _ e => ?_, fun _ e => absurd e hne, fun _ _ _ _ e => absurd e hne, fun _ e => absurd e hne⟩
  cases hp.symm.trans e
  exact hm

theorem inside_takeResult (l : LaneId) (hr : RecordsAgree s) (h : SetpointsInside s) :
    SetpointsInside (takeResult l s) := by
  have hclear : CalmBut l s (s.updLane l (fun ln => { ln with planResult := none })) := calmBut_updLane _
  unfold takeResult
  split
  · next r hs hres =>
    have hn : s.loader.state ≠ .loading := h.loaded (l := l) (by simp [hs])
    dsimp only
    split
    · next plan =>
      have hr' := hclear.records.agree hr
      obtain ⟨ho, hp, hst⟩ := acceptPlan_lane (l := l) plan hr'
      refine h.of_lane hn (hclear.trans (calmBut_acceptPlan plan hr')) (.of_plan hst hp (fun m hm => ?_))
      exact (((setpointsInside_iff.1 h).2.1 l).result plan hs hres m hm).kept
        (OwnedKept.trans (t := s.updLane l _) (fun _ e => ⟨e, rfl⟩) ho)
    · exact (LaneRests.after hclear (laneRests_rejectPlan _)).inside h hn
    · exact (LaneRests.after hclear (laneRests_rejectPlan _)).inside h hn
    · exact (LaneRests.after hclear (laneRests_rejectPlan _)).inside h hn
  · exact h

/-- A release that ends leaves the lane on its plan (R104). -/
theorem inside_endRelease (l : LaneId) (h : SetpointsInside s) : SetpointsInside (endRelease l s) := by
  unfold endRelease
  split
  · next hs _ =>
    split
    · refine h.of_lane (h.loaded (l := l) (by simp [hs])) calmBut_enterRunning ?_
      have hrun : ((enterRunning l s).lane l).state = .running := changeState_state _
      have hplan : ((enterRunning l s).lane l).plan = (s.lane l).plan := by
        rw [enterRunning, changeState_lane, lane_updLane_same]
      have howned : OwnedKept l s (enterRunning l s) := fun a e => by
        rw [enterRunning, changeState_axis]; exact ⟨e, rfl⟩
      refine ⟨fun p _ e m hm => ?_, fun _ e => ?_, fun _ _ _ _ e => ?_, fun _ e => ?_⟩
      · exact (((setpointsInside_iff.1 h).2.1 l).plan p (.inl hs) (hplan ▸ e) m hm).kept howned
      all_goals rw [hrun] at e; cases e
    · exact h
  · exact h

/-- A plan computed without a void member has an entry inside for each axis (R85, R87). -/
theorem planOutcome_inside {j : PlanJob} {p : PlanRecord} (h : SetpointsInside s) (hj : s.planner.inProgress = some j)
    (hw : j.withdrawn = false) (hs : (s.lane j.lane).state = .planning) (hp : planOutcome s j = .ok p) :
    ∀ x ∈ p.members, EntryInside s j.lane p.ramp x := by
  obtain ⟨hlim, hlane, -⟩ := setpointsInside_iff.1 h
  unfold planOutcome at hp
  split at hp
  · cases hp
  · next hvoid =>
    split at hp
    · cases hp
    · split at hp
      · cases hp
      · cases hp
        intro x hx
        obtain ⟨m, hm, rfl⟩ := List.mem_map.1 hx
        obtain ⟨ho, hc⟩ := (hlane j.lane).job j hj hw rfl hs m hm
        have hfit : ¬ FailsVoidCheck s j.lane m := by
          rw [← memberVoid_iff]
          simp only [voidMember, Option.map_eq_none_iff, List.find?_eq_none] at hvoid
          exact hvoid m hm
        simp only [FailsVoidCheck, not_or] at hfit
        obtain ⟨v, hv⟩ := Option.ne_none_iff_exists'.1 hfit.2.2.2.1
        refine ⟨ho, fun c hcfg => ?_⟩
        obtain ⟨hlow, hhigh, hin⟩ := hc c hcfg
        exact planMember_inside hm (hlim _ c hcfg).1 hlow hhigh hv (hin v hv)

/-- A result with entries inside may be delivered to a lane that the Planner has no plan in progress for. -/
theorem inside_deliverResult {r : PlanResult} (h : SetpointsInside s) (hj : s.planner.inProgress = none)
    (hr : ∀ p, (s.lane l).state = .planning → r = .ok p → ∀ m ∈ p.members, EntryInside s l p.ramp m) :
    SetpointsInside (deliverResult l r s) := by
  unfold deliverResult
  split
  · next hs =>
    refine h.of_lane (h.loaded (l := l) (by simp [hs])) (calmBut_updLane _)
      ⟨fun p e => ?_, fun p _ e m hm => ?_, fun _ e => ?_, fun st _ hst => ?_⟩
    · simp [hs] at e
    · simp only [lane_updLane_same, Option.some.injEq] at e
      exact hr p hs e m hm
    · cases hj.symm.trans e
    · exact ((setpointsInside_iff.1 h).2.1 l).step st hs (hst ▸ currentStep_congr rfl (by rw [lane_updLane_same]))
  · exact h

theorem inside_completePlan (h : SetpointsInside s) : SetpointsInside (completePlan s) := by
  unfold completePlan
  split
  · exact h
  · next j hj =>
    have hidle : SetpointsInside { s with planner := { s.planner with inProgress := none } } :=
      h.of_lanes (setpointsInside_iff.1 h).1
        (fun _ => ⟨rfl, rfl, rfl, fun _ => rfl, fun _ e => ⟨e, rfl⟩, fun _ e _ _ => by cases e⟩) id
    refine inside_startService ?_
    split
    · exact hidle
    · next hw =>
      exact inside_deliverResult hidle rfl (fun p hs e => planOutcome_inside (s := s) h hj (by simpa using hw) hs e)

/-! ### Notices and axis requests -/

theorem inside_stationOnline (f : Nat) (h : SetpointsInside s) : SetpointsInside (stationOnline a f s) := by
  unfold stationOnline
  split
  · refine inside_seed f (inside_write h rfl (fun c v hc hv => ?_))
    exact ((setpointsInside_iff.1 h).1 a c hc).2 v hv
  · exact h

theorem inside_stationLost (h : SetpointsInside s) : SetpointsInside (stationLost a s) := by
  unfold stationLost
  split
  · refine (calm_noteWrite false).inside (inside_write (inside_write h rfl (fun c v hc hv => ?_)) rfl
      (fun _ _ _ hv => by cases hv))
    exact ((setpointsInside_iff.1 h).1 a c hc).2 v hv
  · exact (calm_applyFault _).inside h
  · exact (calm_applyFault _).inside h
  all_goals exact h

theorem inside_returnToRest (h : SetpointsInside s) (hl : (s.axis a).state.live) : SetpointsInside (returnToRest a s) := by
  have h1 : SetpointsInside (setAxisState a .rest s) := (calm_setAxisState _ hl (by simp)).inside h
  unfold returnToRest
  dsimp only
  split
  · exact inside_seed _ h1
  · exact h1

theorem valid_order {c : AxisConfig} (h : c.valid = true) : c.low < c.high := by
  simp only [AxisConfig.valid, Bool.and_eq_true, decide_eq_true_eq] at h
  exact h.1.1.1.1.1.1.2

theorem inside_installConfig {c : AxisConfig} (hc : c.valid = true) (ho : (s.axis a).owner = none)
    (h : SetpointsInside s) : SetpointsInside (installConfig a c s) := by
  have hquiet : (installConfig a c s).lanes = s.lanes ∧ (installConfig a c s).planner = s.planner ∧
      (installConfig a c s).cues = s.cues := by
    rw [installConfig, dropSetpoint, noteWrite_quiet]
    exact ⟨rfl, rfl, rfl⟩
  refine h.change a hquiet.1 hquiet.2.1 hquiet.2.2 (loader_installConfig c) (.inl ho) (fun d hd => ?_) (fun b hb => ?_)
  · rw [axis_installConfig, if_pos rfl] at hd ⊢
    cases hd
    exact ⟨valid_order hc, fun v hv => by cases hv⟩
  · rw [axis_installConfig, if_neg hb.symm]

/-- An unowned axis is configured; one that keeps its station and its setpoint keeps it inside the new limits (R16). -/
theorem inside_configureAxis {c : AxisConfig} (hr : RecordsAgree s) (ho : (s.axis a).owner = none)
    (hs : (s.axis a).state.refusesPut = false) (hc : c.valid = true) (hin : leavesSetpointOutside (s.axis a) c = false)
    (h : SetpointsInside s) : SetpointsInside (configureAxis a c s) := by
  unfold configureAxis
  split
  · next old hold =>
    split
    · next hsame =>
      refine h.change a rfl rfl rfl rfl (.inl ho) (fun d hd => ?_) (fun b hb => by rw [axis_updAxis, if_neg hb.symm])
      rw [axis_updAxis_same] at hd ⊢
      cases hd
      refine ⟨valid_order hc, fun v hv => ?_⟩
      have hv : (s.axis a).setpoint = some v := hv
      have hrest : (s.axis a).state = .rest := by
        have hlive : (s.axis a).state.live := hr.live_iff.2 (by simp [hv])
        cases e : (s.axis a).state <;> simp_all [AxisState.live, AxisState.refusesPut]
      simp only [leavesSetpointOutside, hold, hv, hrest, hsame, decide_true, Bool.true_and, Bool.or_eq_false_iff,
        decide_eq_false_iff_not, Nat.not_lt] at hin
      exact hin
    · exact inside_installConfig hc ho h
  · exact inside_installConfig hc ho h

theorem inside_removeAxis (ho : (s.axis a).owner = none) (h : SetpointsInside s) : SetpointsInside (removeAxis a s) := by
  refine h.change a rfl rfl rfl rfl (.inl ho) (fun d hd => ?_) (fun b hb => by rw [axis_removeAxis, if_neg hb.symm])
  rw [axis_removeAxis, if_pos rfl] at hd
  cases hd

/-! ### Master clear, pin reset and the load -/

theorem lane_masterCleared : (masterCleared s).lane l = clearedLane (s.lane l) := Table.get_map _ _ _

theorem inside_masterCleared (h : SetpointsInside s) : SetpointsInside (masterCleared s) :=
  .of_rest ((setpointsInside_iff.1 h).1.kept records_masterCleared) (fun l => by rw [lane_masterCleared]; rfl)
    (fun _ l => by rw [lane_masterCleared]; rfl)

theorem inside_reset : SetpointsInside State.reset := by
  refine .of_rest (fun a c hc => ?_) (fun l => by rw [reset_lane]; rfl) (fun _ l => by rw [reset_lane]; rfl)
  rw [reset_axis] at hc
  cases hc

theorem inside_pinReset (written : Nat) (s : State) : SetpointsInside (pinReset written s) := inside_reset

/-- A configuration that test 5 lets through is in its ranges (R187, R198). -/
theorem readAxis_valid {bytes : List Byte} {c : AxisConfig} (h : readAxis bytes = some (some c)) : c.valid = true := by
  unfold readAxis at h
  split at h
  · dsimp only at h
    split_ifs at h with h0 h1
    · cases h
    · rw [← Option.some.inj (Option.some.inj h)]
      exact h1.2
  · cases h

theorem map_cons_ok {α : Type} {e : Except Nat (List α)} {x : α} {xs : List α} (h : e.map (x :: ·) = .ok xs) :
    ∃ rest, e = .ok rest ∧ xs = x :: rest := by
  cases e with
  | error _ => cases h
  | ok rest => exact ⟨rest, rfl, (Except.ok.inj h).symm⟩

theorem readAxes_valid {n : Nat} {seen : List Nat} {records : List (List Byte)} {axes : List (Option AxisConfig)}
    (h : readAxes n seen records = .ok axes) : ∀ c, some c ∈ axes → c.valid = true := by
  induction records generalizing n seen axes with
  | nil => cases h; simp
  | cons bytes records ih =>
    unfold readAxes at h
    split at h
    · cases h
    · obtain ⟨rest, hrest, rfl⟩ := map_cons_ok h
      intro c hc
      exact ih hrest c (by simpa using hc)
    · next c hread =>
      split at h
      · cases h
      · obtain ⟨rest, hrest, rfl⟩ := map_cons_ok h
        intro d hd
        rcases List.mem_cons.1 hd with e | hd
        · cases e; exact readAxis_valid hread
        · exact ih hrest d hd

/-- An image is installed with valid configurations alone (R187). -/
theorem judgeImage_valid {image : List Byte} {n : Nat} {c : AxisConfig}
    (h : (judgeImage image).2.axes.getD n none = some c) : c.valid = true := by
  have hempty : (Configuration.empty.axes).getD n none ≠ some c := by simp [Configuration.empty]
  unfold judgeImage at h
  split_ifs at h
  · exact absurd h hempty
  · exact absurd h hempty
  · exact absurd h hempty
  · exact absurd h hempty
  · unfold judgeRecords at h
    split at h
    · exact absurd h hempty
    · next axes haxes =>
      split at h
      · exact absurd h hempty
      · refine readAxes_valid haxes c ?_
        rw [List.getD_eq_getElem?_getD] at h
        cases hn : axes[n]? with
        | none => simp [hn] at h
        | some x =>
          simp only [hn, Option.getD_some] at h
          subst h
          exact List.mem_of_getElem? hn

theorem inside_completeLoad (found : List (Nat × Byte)) (hr : RecordsAgree s) (h : SetpointsInside s) :
    SetpointsInside (completeLoad found s) := by
  unfold completeLoad
  split
  · next hl =>
    obtain ⟨hlim, -, hidle⟩ := setpointsInside_iff.1 h
    dsimp only
    refine calm_offerAll.inside ((calm_emit _).inside (.of_rest (fun a c hc => ?_) (fun l => ?_) (fun _ => hidle hl)))
    · simp only [install, State.axis, Table.get_mapIdx] at hc ⊢
      split at hc
      · next cfg hcfg =>
        cases hc
        refine ⟨valid_order (judgeImage_valid hcfg), fun v hv => ?_⟩
        have hnone : (s.axis a).setpoint = none := (hr.1 a).2.2.1.2 (.inl ((hr.2 hl).1 a))
        cases hnone.symm.trans hv
      · exact hlim a c hc
    · exact congrArg LaneState.motion (hidle hl l)
  · exact h

end Sys2Proof.Machine

namespace Sys2Proof.Machine

variable {s t u : State} {l k : LaneId} {a b : AxisId}

/-- Every command keeps the setpoints inside their limits. -/
theorem exec_keeps_inside {i : Instr} (hr : RecordsAgree s) (hp : PlannerSound s) (h : SetpointsInside s)
    (e : exec i s = .next t) : SetpointsInside t :=
  LawKept.exec
    { agree := hr
      now := h
      calm := Calm.inside
      seed := fun f _ hu => inside_seed f hu
      online := inside_stationOnline
      lost := inside_stationLost
      acts := fun hl => hl.inside h hp
      serves := fun hn hl => hl.inside h hp hn
      reset := fun written => inside_pinReset written s
      load := fun found => inside_completeLoad found hr h
      work := fun l => inside_generatorWork l h
      stop := fun a => inside_stopStep a hr h
      release := fun l => inside_endRelease l h
      plan := inside_completePlan h
      result := fun l => inside_takeResult l hr h
      rest := fun _ => inside_returnToRest h
      configure := fun _ ho hs hc hin => inside_configureAxis hr ho hs hc hin h
      remove := fun _ ho => inside_removeAxis ho h
      clear := inside_masterCleared h } e

/-- Settles O22: a lane moves an axis only along a plan made inside the limits of an axis it owns, a stop step and a seed are
clamped, and no axis that is owned changes its limits. -/
theorem every_step_keeps_setpoints_inside_their_limits : Obligations.every_step_keeps_setpoints_inside_their_limits :=
  fun _ _ hr hp h => step_leads (P := fun s => RecordsAgree s ∧ PlannerSound s ∧ SetpointsInside s)
    (fun ⟨hr, hp, h⟩ => ⟨(calm_withPending _).agree hr, hp, (calm_withPending _).inside h⟩) (·.2.2)
    (fun ⟨hr, hp, h⟩ => exec_keeps_inside hr hp h) ⟨hr, hp, h⟩

end Sys2Proof.Machine

namespace Sys2Proof.Machine

variable {s t u : State} {l k : LaneId} {a b : AxisId}

/-! ### Requests taken, as the statements put them -/

/-- A request taken whose change posts nothing leaves that change and its reply (R173). -/
theorem serve_quiet {p : Console} {tag kind : Byte} {self : Instr} {act : State → State × Answer} {ans : Answer}
    (h : Taken s p self) (hact : act s = (u, ans)) (hu : u.messages.posted = s.messages.posted) :
    Host.Outcome.next (φ := Fault) (ρ := Refusal) (serve p tag kind self act s) =
      .next (answered p u [] ⟨kind, tag, ans.code, ans.data⟩) := by
  rw [serve_of_taken h, finish_quiet hact hu]

/-- A request taken and accepted, with the data its rule gives. -/
theorem serve_ok {p : Console} {tag kind : Byte} {self : Instr} {act : State → State × Answer} {data : List Byte}
    (h : Taken s p self) (hact : act s = (u, .ok data)) (hu : u.messages.posted = s.messages.posted) :
    Host.Outcome.next (φ := Fault) (ρ := Refusal) (serve p tag kind self act s) =
      .next (answered p u [] ⟨kind, tag, .ok, data⟩) :=
  serve_quiet h hact hu

/-- A request taken and refused leaves its reply alone. -/
theorem serve_refused {p : Console} {tag kind : Byte} {self : Instr} {act : State → State × Answer} {code : ResultCode}
    (h : Taken s p self) (hact : act s = (s, .refuse code)) :
    Host.Outcome.next (φ := Fault) (ρ := Refusal) (serve p tag kind self act s) =
      .next (answered p s [] ⟨kind, tag, code, []⟩) :=
  serve_quiet h hact rfl

theorem axisOf_none {b : Byte} (h : 47 < b.toNat) : axisOf b = none := by
  simp [axisOf, Nat.not_lt.2 (Nat.succ_le_of_lt h)]

theorem saving_iff : s.saving = true ↔ s.loader.save ≠ none := by
  simp [State.saving, Option.isSome_iff_ne_none]

theorem not_saving (h : s.loader.save = none) : s.saving = false := by
  simp [State.saving, h]

/-! ### Saving (R189) -/

theorem putAxisRemove_busy {axis : Byte} (ha : axisOf axis = some a)
    (h : s.saving || (s.axis a).owner.isSome || (s.axis a).state.travelling) :
    putAxisRemove axis s = (s, .refuse .busy) := by
  simp only [putAxisRemove, ha, h, if_true]

theorem putAxis_busy {axis : Byte} {r : RawConfig} (hr : r.present ≠ 0) (ha : axisOf axis = some a)
    (h : s.saving || (s.axis a).owner.isSome || (s.axis a).state.refusesPut) :
    putAxis axis r s = (s, .refuse .busy) := by
  simp only [putAxis, if_neg hr, ha, h, if_true]

/-- While a save is in progress no configuration is written (R16, R17). -/
theorem putAxis_saving {axis : Byte} {r : RawConfig} (ha : axisOf axis = some a) (h : s.saving = true) :
    putAxis axis r s = (s, .refuse .busy) := by
  by_cases hr : r.present = 0
  · rw [putAxis, if_pos hr, putAxisRemove_busy ha (by simp [h])]
  · exact putAxis_busy hr ha (by simp [h])

theorem putPair_saving {pair upper lower : Byte} {gap : Half} {n : PairId} (hn : pairOf pair = some n)
    (h : s.saving = true) : putPair pair upper lower gap s = (s, .refuse .busy) := by
  simp only [putPair, hn, h, if_true]

theorem dropPair_saving {pair : Byte} {n : PairId} (hn : pairOf pair = some n) (h : s.saving = true) :
    dropPair pair s = (s, .refuse .busy) := by
  simp only [dropPair, hn, h, Bool.true_or, if_true]

theorem masterClear_busy (h : s.saving || s.lanes.cells.any (fun ln => ln.state.refusesMaster)) :
    masterClear s = (s, .refuse .busy) := by
  simp only [masterClear, h, if_true]

/-- Settles O8: the flag with its snapshot, and the first check of every other write of the configuration. -/
theorem a_save_forms_one_snapshot_and_holds_it : Obligations.a_save_forms_one_snapshot_and_holds_it := by
  refine ⟨fun p tag s ht => ⟨fun hn => ?_, fun hs => ?_⟩, fun p tag s hs => ?_⟩
  · refine serve_ok ht ?_ rfl
    simp only [saveImage, not_saving hn]
    rfl
  · refine serve_refused ht ?_
    simp only [saveImage, saving_iff.2 hs, if_true]
  · have hsav := saving_iff.2 hs
    refine ⟨fun axis config ht ha => ?_, fun axis ht ha => ?_, fun pair upper lower gap ht hn => ?_,
      fun pair ht hn => ?_, fun ht => ?_⟩
    · obtain ⟨a, ha⟩ := Option.isSome_iff_exists.1 ha
      exact serve_refused ht (putAxis_saving ha hsav)
    · obtain ⟨a, ha⟩ := Option.isSome_iff_exists.1 ha
      exact serve_refused ht (putAxisRemove_busy ha (by simp [hsav]))
    · obtain ⟨n, hn⟩ := Option.isSome_iff_exists.1 hn
      exact serve_refused ht (putPair_saving hn hsav)
    · obtain ⟨n, hn⟩ := Option.isSome_iff_exists.1 hn
      exact serve_refused ht (dropPair_saving hn hsav)
    · exact serve_refused ht (masterClear_busy (by simp [hsav]))

/-! ### The configuration of an axis (R16, R17) -/

theorem refusesPut_iff {st : AxisState} :
    st.refusesPut = true ↔ st = .moving ∨ st = .stopping ∨ ∃ c, st = .faulted c := by
  cases st <;> simp [AxisState.refusesPut]

/-- Check 3 of R16 passes a present byte of 1 and a lawful record. -/
theorem checkConfig_eq (r : RawConfig) :
    checkConfig r = if r.present = 1 ∧ configLawful r then some (rawConfig r) else none := by
  have hvalid : (rawConfig r).valid = true ↔ configLawful r := by
    simp only [AxisConfig.valid, within, Bool.and_eq_true, decide_eq_true_eq]
    simp only [rawConfig, configLawful]
    omega
  unfold checkConfig
  simp only [hvalid]

theorem addressTaken_iff {station : Nat} :
    addressTaken s a station = true ↔ ∃ b c, b ≠ a ∧ (s.axis b).config = some c ∧ c.station = station := by
  simp only [addressTaken, List.any_eq_true, List.mem_finRange, true_and, Bool.and_eq_true, decide_eq_true_eq]
  refine exists_congr (fun b => ?_)
  cases (s.axis b).config <;> simp

/-- Check 5 of R16, for an axis that is present and has a setpoint. -/
theorem leavesSetpointOutside_iff {x : Axis} {c : AxisConfig} :
    leavesSetpointOutside x c = true ↔ ∃ old v, x.config = some old ∧ x.setpoint = some v ∧ x.state = .rest ∧
      old.station = c.station ∧ (v < c.low * Config.unit ∨ c.high * Config.unit < v) := by
  unfold leavesSetpointOutside
  cases x.config <;> cases x.setpoint <;> simp [and_assoc]

/-- The checks of R16 behind the busy check. -/
theorem putAxis_judged {axis : Byte} {r : RawConfig} (hr : r.present ≠ 0) (ha : axisOf axis = some a)
    (hs : s.loader.save = none) (ho : (s.axis a).owner = none)
    (hst : (s.axis a).state ∈ [AxisState.unconfigured, .offline, .rest]) :
    putAxis axis r s =
      if r.present = 1 ∧ configLawful r then
        if addressTaken s a r.station.toNat || leavesSetpointOutside (s.axis a) (rawConfig r) then
          (s, .refuse .badArg)
        else (configureAxis a (rawConfig r) s, .ok [])
      else (s, .refuse .badArg) := by
  have hput : (s.axis a).state.refusesPut = false := by
    simp only [List.mem_cons, List.not_mem_nil, or_false] at hst
    rcases hst with h | h | h <;> rw [h] <;> rfl
  simp only [putAxis, if_neg hr, ha, not_saving hs, ho, hput, checkConfig_eq]
  by_cases hc : r.present = 1 ∧ configLawful r
  · simp only [if_pos hc]; rfl
  · simp only [if_neg hc]; rfl

/-- A write of the setpoint that posts nothing changes the last gaps alone. -/
theorem dropSetpoint_frame : ∃ pairs, dropSetpoint a s =
    { s with pairs := pairs, axes := s.axes.modify a (fun ax => { ax with setpoint := none, previous := none }) } :=
  ⟨_, by rw [dropSetpoint, noteWrite_quiet]; rfl⟩

/-- GapsFollow speaks of the pairs before and of the pairs and axes after. -/
theorem GapsFollow.congr {s' t' : State} (h : GapsFollow a s t) (hs : s'.pairs = s.pairs) (ht : t'.pairs = t.pairs)
    (hax : t'.axes = t.axes) : GapsFollow a s' t' := by
  have haxis (b : AxisId) : t'.axis b = t.axis b := by rw [State.axis, hax]; rfl
  intro n
  obtain ⟨hnone, hsome⟩ := h n
  rw [hs, ht]
  refine ⟨hnone, fun pr hpr => ?_⟩
  obtain ⟨hwatch, hleft⟩ := hsome pr hpr
  simp only [GapNow, HeightNow, haxis]
  exact ⟨hwatch, hleft⟩

theorem installConfig_gaps (c : AxisConfig) : GapsFollow a s (installConfig a c s) :=
  (dropSetpoint_gaps (s.updAxis a (fun ax => { ax with
    config := some c, state := .offline, feedback := none, load := none, loadWarning := false
    arriving := false })) a).congr rfl rfl rfl

/-- What a new station entry leaves of the rest of the part (R152, R154). -/
theorem installConfig_frame (c : AxisConfig) : EntryDiscarded a s (installConfig a c s) ∧
    { installConfig a c s with
      axes := s.axes, stations := s.stations, pairs := s.pairs, link := s.link, messages := s.messages } = s := by
  obtain ⟨pairs, h⟩ := dropSetpoint_frame (a := a) (s := s.updAxis a (fun ax => { ax with
    config := some c, state := .offline, feedback := none, load := none, loadWarning := false, arriving := false }))
  rw [installConfig, h]
  exact ⟨⟨rfl, rfl⟩, rfl⟩

/-- A station address that the axis does not have is installed. -/
theorem configureAxis_new {c : AxisConfig} (h : ∀ old, (s.axis a).config = some old → old.station ≠ c.station) :
    configureAxis a c s = installConfig a c s := by
  unfold configureAxis
  split
  · next old hold => rw [if_neg (h old hold)]
  · rfl

/-- Settles O40, by the checks of R16 in order. -/
theorem put_axis_writes_a_checked_configuration : Obligations.put_axis_writes_a_checked_configuration := by
  intro p tag axis r s hr ht
  refine ⟨fun h => ?_, fun a ha => ⟨fun h => ?_, fun hs ho hst => ?_⟩⟩
  · refine serve_refused ht ?_
    simp only [putAxis, if_neg hr, axisOf_none h]
  · refine serve_refused ht (putAxis_busy hr ha ?_)
    simp only [Bool.or_eq_true, saving_iff, Option.isSome_iff_ne_none, refusesPut_iff, or_assoc]
    exact h
  · have hput := putAxis_judged hr ha hs ho hst
    refine ⟨fun h => ?_, fun h => ?_, fun old v hold hv hrest hsame hout => ?_, fun hp hl hfree => ?_⟩
    · refine serve_refused ht ?_
      rw [hput, if_neg (by tauto)]
    · have htaken : addressTaken s a r.station.toNat = true := addressTaken_iff.2 h
      refine serve_refused ht ?_
      rw [hput, htaken]
      simp
    · have hleaves : leavesSetpointOutside (s.axis a) (rawConfig r) = true :=
        leavesSetpointOutside_iff.2 ⟨old, v, hold, hv, hrest, hsame, hout⟩
      refine serve_refused ht ?_
      rw [hput, hleaves]
      simp
    · have hfree' : addressTaken s a r.station.toNat = false := by
        rw [Bool.eq_false_iff, ne_eq, addressTaken_iff]
        rintro ⟨b, c, hb, hc, he⟩
        exact hfree b c hb hc he
      refine ⟨fun old hold hsame hin => ?_, fun hnew => ?_⟩
      · have hstays : leavesSetpointOutside (s.axis a) (rawConfig r) = false := by
          rw [Bool.eq_false_iff, ne_eq, leavesSetpointOutside_iff]
          rintro ⟨_, v, -, hv, -, -, hout⟩
          obtain ⟨hlow, hhigh⟩ := hin v hv
          exact hout.elim (Nat.not_lt.2 hlow) (Nat.not_lt.2 hhigh)
        refine serve_ok ht ?_ rfl
        rw [hput, if_pos ⟨hp, hl⟩, hfree', hstays, configureAxis, hold]
        simp only [Bool.or_self, Bool.false_eq_true, if_false, rawConfig, hsame, if_true]
      · have hstays : leavesSetpointOutside (s.axis a) (rawConfig r) = false := by
          rw [Bool.eq_false_iff, ne_eq, leavesSetpointOutside_iff]
          rintro ⟨old, _, hold, -, -, hsame, -⟩
          exact hnew old hold hsame
        obtain ⟨hdisc, hframe⟩ := installConfig_frame (a := a) (s := s) (rawConfig r)
        refine ⟨installConfig a (rawConfig r) s, serve_ok ht ?_ ?_, ?_, ?_, hdisc, installConfig_gaps _,
          fun b hb => ?_, hframe⟩
        · rw [hput, if_pos ⟨hp, hl⟩, hfree', hstays, configureAxis_new hnew]
          simp
        · rw [hdisc.2]
        · rw [axis_installConfig, if_pos rfl]
        · rw [station_installConfig, if_pos rfl]; rfl
        · rw [axis_installConfig, if_neg hb.symm, station_installConfig, if_neg hb.symm]
          exact ⟨rfl, rfl⟩

end Sys2Proof.Machine

namespace Sys2Proof.Machine

variable {s t u : State} {l k : LaneId} {a b : AxisId}

/-! ### Removing, locking and clearing (R17, R15, R19) -/

/-- Settles O41: the busy check, or the record at its reset values but for the lock. -/
theorem an_axis_is_removed_from_service : Obligations.an_axis_is_removed_from_service := by
  intro p tag axis s ht
  refine ⟨fun h => ?_, fun a ha => ⟨fun h => ?_, fun hs ho hm hst => ?_⟩⟩
  · refine serve_refused ht ?_
    simp only [putAxisRemove, axisOf_none h]
  · refine serve_refused ht (putAxisRemove_busy ha ?_)
    simp only [Bool.or_eq_true, saving_iff, Option.isSome_iff_ne_none, travelling_iff, or_assoc]
    exact h
  · have htravel : (s.axis a).state.travelling = false := by
      rw [Bool.eq_false_iff, ne_eq, travelling_iff]
      exact not_or.2 ⟨hm, hst⟩
    refine ⟨removeAxis a s, serve_ok ht ?_ rfl, ?_, ?_, ⟨rfl, rfl⟩, fun n pr hn hpr => ?_, fun n hn => ?_, fun b hb => ?_,
      rfl⟩
    · simp only [putAxisRemove, ha, not_saving hs, ho, htravel]
      rfl
    · rw [axis_removeAxis, if_pos rfl, ho]; rfl
    · rw [station_removeAxis, if_pos rfl]
    · have hn' : s.pairs.get n = some pr := hn
      show (s.pairs.map _).get n = _
      rw [Table.get_map, hn', Option.map_some, if_pos hpr]
    · show (s.pairs.map _).get n = _
      rw [Table.get_map]
      cases hp : s.pairs.get n with
      | none => rfl
      | some pr => rw [Option.map_some, if_neg (not_or.2 (hn pr hp))]
    · rw [axis_removeAxis, if_neg hb.symm, station_removeAxis, if_neg hb.symm]
      exact ⟨rfl, rfl⟩

/-- Powers of two summed over the numbers that pass a test stay below the next power, and each number's bit is its test. -/
theorem testBit_flags (n : Nat) (p : Fin n → Bool) :
    (List.finRange n).foldl (fun m i => if p i then m + 2 ^ i.val else m) 0 < 2 ^ n ∧
      ∀ i : Fin n, ((List.finRange n).foldl (fun m i => if p i then m + 2 ^ i.val else m) 0).testBit i.val = p i := by
  induction n with
  | zero => exact ⟨by simp, fun i => i.elim0⟩
  | succ n ih =>
    obtain ⟨hlt, hbit⟩ := ih (fun i => p i.castSucc)
    rw [List.finRange_succ_last, List.foldl_append, List.foldl_map]
    simp only [Fin.val_castSucc, List.foldl_cons, List.foldl_nil, Fin.val_last]
    generalize (List.finRange n).foldl (fun m i => if p i.castSucc then m + 2 ^ i.val else m) 0 = m at hlt hbit
    have hpow : 2 ^ (n + 1) = 2 ^ n + 2 ^ n := by rw [Nat.pow_succ]; omega
    refine ⟨by split <;> omega, fun i => ?_⟩
    induction i using Fin.lastCases with
    | last =>
      rw [Fin.val_last]
      cases p (Fin.last n)
      · simpa using Nat.testBit_lt_two_pow hlt
      · rw [if_pos rfl, Nat.add_comm, Nat.testBit_two_pow_add_eq, Nat.testBit_lt_two_pow hlt]; rfl
    | cast i =>
      rw [Fin.val_castSucc, ← hbit i]
      split
      · rw [Nat.add_comm, Nat.testBit_two_pow_add_gt i.isLt]
      · rfl

/-- The 48 lock flags as LOCK SET answers them (R15). -/
theorem lockFlags_bit (s : State) (a : AxisId) : (lockFlags s).getLsbD a.val = (s.axis a).lock := by
  have h := (testBit_flags 48 (fun a => (s.axis a).lock)).2 a
  rw [lockFlags, BitVec.getLsbD_ofNat, h]
  simp

/-- Settles O42: one change of the lock flags, mask by mask. -/
theorem lock_set_writes_the_masked_flags : Obligations.lock_set_writes_the_masked_flags := by
  intro p tag value mask s ht
  refine ⟨lockAxes value mask s, serve_ok ht rfl rfl, fun a => ?_, lockFlags_bit _, rfl⟩
  show (s.axes.mapIdx _).get a = _
  rw [Table.get_mapIdx]
  by_cases h : mask.getLsbD a.val = true
  · simp only [h, if_true]; rfl
  · simp only [h]; rfl

/-- A seed of a configured axis changes its setpoints and the last gaps alone (R12). -/
theorem seed_frame {c : AxisConfig} (f : Nat) (hc : (s.axis a).config = some c) : ∃ pairs, seed a f s =
    { s with
      pairs := pairs
      axes := s.axes.modify a (fun ax => { ax with setpoint := some (seedValue c f), previous := some (seedValue c f) }) } :=
  ⟨_, by rw [seed, hc]; exact noteWrite_quiet _ _⟩

/-- An axis that becomes REST with a seed: its record, the last gaps, and nothing else (R5, R12, R19). -/
theorem restSeeded {c : AxisConfig} (f : Nat) (hc : (s.axis a).config = some c) :
    let t := seed a f (setAxisState a .rest s)
    t.axis a = { s.axis a with
        state := .rest, arriving := false, setpoint := some (seedValue c f), previous := some (seedValue c f) } ∧
      GapsFollow a s t ∧ (∀ b, b ≠ a → t.axis b = s.axis b) ∧ { t with axes := s.axes, pairs := s.pairs } = s := by
  have hc' : ((setAxisState a .rest s).axis a).config = some c := by rw [axis_setAxisState, if_pos rfl]; exact hc
  refine ⟨?_, (seed_gaps _ a f hc').congr rfl rfl rfl, fun b hb => ?_, ?_⟩
  · rw [seed_axis _ a f hc', axis_setAxisState, if_pos rfl]
  · obtain ⟨pairs, h⟩ := seed_frame f hc'
    rw [h]
    show ((setAxisState a .rest s).updAxis a _).axis b = _
    rw [axis_updAxis, if_neg hb.symm, axis_setAxisState, if_neg hb.symm]
  · obtain ⟨pairs, h⟩ := seed_frame f hc'
    rw [h]
    rfl

theorem ownerBusy_iff : ownerBusy s a = true ↔
    ∃ l, (s.axis a).owner = some l ∧ (s.lane l).state ∈ [LaneState.planning, .releasing, .running] := by
  unfold ownerBusy
  split
  · next l h =>
    rw [h]
    cases hs : (s.lane l).state <;> simp [LaneState.refusesClear, hs]
  · next h => simp [h]

/-- Settles O43, by the checks of R19 in order. -/
theorem clear_fault_returns_an_axis_to_rest : Obligations.clear_fault_returns_an_axis_to_rest := by
  intro p tag axis s ht
  refine ⟨fun h => ?_, fun a ha => ⟨fun h => ?_, fun cause hf => ⟨fun l ho hl => ?_, fun hfree => ⟨fun hoff => ?_, ?_⟩⟩⟩⟩
  · refine serve_refused ht ?_
    simp only [clearFault, axisOf_none h]
  · refine serve_refused ht ?_
    simp only [clearFault, ha]
    split
    · next c hc => exact absurd hc (h c)
    all_goals rfl
  · refine serve_refused ht ?_
    have hbusy : ownerBusy s a = true := ownerBusy_iff.2 ⟨l, ho, hl⟩
    simp only [clearFault, ha, hf, hbusy, if_true]
  all_goals
    have hbusy : ownerBusy s a = false := by
      rw [Bool.eq_false_iff, ne_eq, ownerBusy_iff]
      rintro ⟨l, ho, hl⟩
      exact hfree l ho hl
  · refine serve_quiet (ans := (⟨.unavailable, some a, none⟩ : Refused).answer) ht ?_ rfl
    simp only [clearFault, ha, hf, hbusy, hoff, if_true, Bool.false_eq_true, if_false]
  · intro e r c he hon hr hc
    have honline : s.online a = true := by simp only [State.online, he, hon, decide_true]
    have hlast : lastReply s a = some r := by simp only [lastReply, he, Option.bind_some, hr]
    refine ⟨fun hfault => ?_, fun hfault => ?_⟩
    · refine serve_quiet (ans := (⟨.unavailable, some a, none⟩ : Refused).answer) ht ?_ rfl
      simp only [clearFault, ha, hf, hbusy, honline, hlast, hfault, if_true, Bool.false_eq_true, Bool.true_eq_false,
        if_false]
    · obtain ⟨haxis, hgaps, hothers, hframe⟩ := restSeeded (a := a) r.feedback hc
      refine ⟨seed a r.feedback (setAxisState a .rest s), serve_ok ht ?_ ?_, haxis, hgaps, hothers, hframe⟩
      · simp only [clearFault, ha, hf, hbusy, honline, hlast, hfault, Bool.false_eq_true, Bool.true_eq_false, if_false,
          returnToRest]
      · have hposted := congrArg (fun t : State => t.messages.posted) hframe
        exact hposted

/-! ### Master clear (R183) -/

theorem refusesMaster_iff {st : LaneState} :
    st.refusesMaster = true ↔ st ∈ [LaneState.planning, .releasing, .running, .stopping] := by
  cases st <;> simp [LaneState.refusesMaster]

theorem taken_of_empty {c : CueStore} (h : ∀ n, c.slots.get n = none) : c.taken = 0 := by
  rw [CueStore.taken, Table.cells_eq, List.map_map]
  refine List.sum_eq_zero (fun x hx => ?_)
  obtain ⟨n, -, rfl⟩ := List.mem_map.1 hx
  simp only [Function.comp_apply, h n, entries]

/-- A store without a numbered step has its whole pool free (R42). -/
theorem free_of_empty {c : CueStore} (h : ∀ n, c.slots.get n = none) : c.free = 2048 := by
  rw [CueStore.free, taken_of_empty h]
  rfl

/-- Settles O55: the busy check, or the one change, which finds the plan queue empty since no lane is PLANNING. -/
theorem master_clear_makes_one_change_across_the_part : Obligations.master_clear_makes_one_change_across_the_part := by
  intro p tag s ht
  have hany : s.lanes.cells.any (fun ln => ln.state.refusesMaster) = true ↔
      ∃ l : LaneId, (s.lane l).state ∈ [LaneState.planning, .releasing, .running, .stopping] := by
    simp only [Table.cells_eq, List.any_map, List.any_eq_true, List.mem_finRange, true_and, Function.comp_apply,
      refusesMaster_iff]
    rfl
  refine ⟨fun h => ?_, fun hs hstill => ?_⟩
  · refine serve_refused ht (masterClear_busy ?_)
    simpa only [Bool.or_eq_true, saving_iff, hany] using h
  · have hnone : s.lanes.cells.any (fun ln => ln.state.refusesMaster) = false := by
      rw [Bool.eq_false_iff, ne_eq, hany]
      rintro ⟨l, hl⟩
      have := hstill l
      simp only [List.mem_cons, List.not_mem_nil, or_false] at this hl
      rcases this with h | h | h | h <;> rw [h] at hl <;> simp at hl
    refine ⟨masterCleared s, ?_, fun l => lane_masterCleared, fun a => Table.get_map _ _ _, fun n => Table.get_fill _ _,
      fun l => Table.get_fill _ _, free_of_empty (fun n => Table.get_fill _ _), fun n => Table.get_map _ _ _,
      fun q => Table.get_map _ _ _, rfl, rfl, rfl, rfl,
      fun hp => takeWithdrawals_clears hp (fun l e => ?_), rfl⟩
    · show Host.Outcome.next (serve p tag 0x55 (.masterClear p tag) masterClear s) = _
      rw [serve_of_taken ht, finish_emptied (u := masterCleared s) (a := .ok []) ?_ rfl]
      · rfl
      · simp only [masterClear, not_saving hs, hnone]
        rfl
    · have := hstill l
      rw [e] at this
      simp at this

end Sys2Proof.Machine

namespace Sys2Proof.Machine

variable {s t u : State} {l k : LaneId} {a b : AxisId}

/-! ### Faults and station notices (R5, R6, R10) -/

/-- A fault on an axis fit for it: faulted, its stop record dropped, AXIS_FAULT posted, the owner given notice (R10). -/
theorem applyFault_noticed (cause : FaultCause) (h : (s.axis a).state ∈ [AxisState.rest, .moving, .stopping]) :
    applyFault a cause s = ({ s with
      axes := s.axes.modify a (fun ax => { ax with state := .faulted cause, arriving := false })
      stops := s.stops.set a none
      lanes := match (s.axis a).owner with
        | some l => s.lanes.modify l (fun ln => { ln with inbox := ln.inbox ++ [.fault a] })
        | none => s.lanes } : State).emit (.axisFault a cause (s.axis a).owner) := by
  simp only [List.mem_cons, List.not_mem_nil, or_false] at h
  unfold applyFault
  cases ho : (s.axis a).owner <;> rcases h with h | h | h <;> rw [h] <;> rfl

/-- The states in which a fault request finds nothing to do. -/
theorem unfit_of_states (h : (s.axis a).state = .unconfigured ∨ (s.axis a).state = .offline ∨
    ∃ c, (s.axis a).state = .faulted c) : (s.axis a).state ∉ [AxisState.rest, .moving, .stopping] := by
  rcases h with h | h | ⟨c, h⟩ <;> simp [h]

/-- Settles O38, by the axis state. -/
theorem a_fault_request_acts_by_the_axis_state : Obligations.a_fault_request_acts_by_the_axis_state := by
  intro a cause s hreq
  have htake : exec (.faultRequest a cause) s = .next (applyFault a cause
      { s with messages := { s.messages with faultRequests := s.messages.faultRequests.erase (a, cause) } }) := by
    show Host.Outcome.next (takeFaultRequest a cause s) = _
    rw [takeFaultRequest, if_pos hreq]
    rfl
  exact ⟨_, rfl, fun h => htake.trans (congrArg Host.Outcome.next (applyFault_unfit _ a cause (unfit_of_states h))),
    fun h => htake.trans (congrArg Host.Outcome.next (applyFault_noticed cause h))⟩

theorem checkWaiting_iff : checkWaiting s a = true ↔
    (∃ x ∈ s.messages.replyChecks, x.axis = a) ∨ ∃ x ∈ s.messages.faultRequests, x.1 = a := by
  simp [checkWaiting]

theorem exec_stationOnlineNotice {n : StationNotice} {f : Nat} (hn : stationNotice s a = some n) (hf : n.online = some f) :
    exec (.stationOnlineNotice a) s =
      .next (if checkWaiting s a then s else stationOnline a f (dropNotice n s)) := by
  show Host.Outcome.next (takeOnlineNotice a s) = _
  simp only [takeOnlineNotice, hn, hf]

theorem exec_stationLostNotice {n : StationNotice} (hn : stationNotice s a = some n) (hf : n.online = none) :
    exec (.stationLostNotice a) s = .next (stationLost a (dropNotice n s)) := by
  show Host.Outcome.next (takeLostNotice a s) = _
  simp only [takeLostNotice, hn, hf]

theorem stationOnline_offline {f : Nat} (h : (s.axis a).state = .offline) :
    stationOnline a f s = seed a f (setAxisState a .rest s) := by
  rw [stationOnline, if_pos h]

/-- A REST axis whose station is lost: OFFLINE without a setpoint, its last gaps following (R6, R147). -/
theorem stationLost_rest (h : (s.axis a).state = .rest) : GapsFollow a s (stationLost a s) ∧
    { stationLost a s with pairs := s.pairs } = s.updAxis a (fun ax =>
      { ax with state := .offline, arriving := false, setpoint := none, previous := none }) := by
  have hlost : stationLost a s = dropSetpoint a (setAxisState a .offline s) := by rw [stationLost, h]
  obtain ⟨pairs, hdrop⟩ := dropSetpoint_frame (a := a) (s := setAxisState a .offline s)
  refine ⟨?_, ?_⟩
  · rw [hlost]
    exact (dropSetpoint_gaps (setAxisState a .offline s) a).congr rfl rfl rfl
  · rw [hlost, hdrop]
    simp only [setAxisState, State.updAxis, Table.modify_modify]

/-- Settles O39: each notice by the axis state, once it is the oldest for the axis. -/
theorem a_station_notice_acts_by_the_axis_state : Obligations.a_station_notice_acts_by_the_axis_state := by
  intro a s n hn
  refine ⟨fun hon hwait => ?_, fun f c hf hr hq hc => ?_, fun hlost => ?_⟩
  · obtain ⟨f, hf⟩ := Option.isSome_iff_exists.1 hon
    rw [exec_stationOnlineNotice hn hf, if_pos (checkWaiting_iff.2 hwait)]
  · have hfree : ¬ checkWaiting s a = true := by
      rw [checkWaiting_iff]
      rintro (⟨x, hx, e⟩ | ⟨x, hx, e⟩)
      · exact hr x hx e
      · exact hq x hx e
    refine ⟨_, by rw [exec_stationOnlineNotice hn hf, if_neg hfree], ?_⟩
    by_cases ho : (s.axis a).state = .offline
    · obtain ⟨haxis, hgaps, hothers, hframe⟩ := restSeeded (s := dropNotice n s) (a := a) f hc
      rw [stationOnline_offline (show ((dropNotice n s).axis a).state = .offline from ho)]
      refine ⟨?_, fun _ => ⟨haxis, hgaps.congr rfl rfl rfl⟩, fun hne => absurd ho hne, hothers, ?_⟩
      · have hmsg := congrArg State.messages hframe
        exact hmsg
      · have hput := congrArg (fun t : State => { t with messages := s.messages }) hframe
        exact hput
    · have hstay : stationOnline a f (dropNotice n s) = dropNotice n s := by
        rw [stationOnline, if_neg (show ¬ ((dropNotice n s).axis a).state = .offline from ho)]
      rw [hstay]
      exact ⟨rfl, fun h => absurd h ho, fun _ => ⟨rfl, rfl⟩, fun _ _ => rfl, rfl⟩
  · refine ⟨_, rfl, fun h => ?_, fun h => ?_, fun h => ?_⟩
    · obtain ⟨hgaps, hframe⟩ := stationLost_rest (s := dropNotice n s) h
      exact ⟨_, exec_stationLostNotice hn hlost, hgaps.congr rfl rfl rfl, hframe⟩
    · have hfit : (s.axis a).state ∈ [AxisState.rest, .moving, .stopping] := by
        rcases h with h | h <;> simp [h]
      have hfault : stationLost a (dropNotice n s) = applyFault a .linkLost (dropNotice n s) := by
        unfold stationLost
        rcases h with h | h <;> rw [show ((dropNotice n s).axis a).state = _ from h]
      rw [exec_stationLostNotice hn hlost, hfault]
      exact congrArg Host.Outcome.next (applyFault_noticed (s := dropNotice n s) .linkLost hfit)
    · rw [exec_stationLostNotice hn hlost]
      unfold stationLost
      rcases h with h | h | ⟨c, h⟩ <;> rw [show ((dropNotice n s).axis a).state = _ from h] <;> rfl

end Sys2Proof.Machine

namespace Sys2Proof.Machine

variable {s t u : State} {l k : LaneId} {a b : AxisId}

/-! ### An accepted plan (R7, R65, R102) -/

theorem emitAll_emitAll (es fs : List EventBody) : emitAll fs (emitAll es s) = emitAll (es ++ fs) s := by
  simp [emitAll, State.updMessages]

theorem moving_nil_iff (plan : PlanRecord) : plan.moving = [] ↔ ∀ m ∈ plan.members, m.distance = 0 := by
  simp [PlanRecord.moving]

theorem mem_moving_axes (plan : PlanRecord) :
    a ∈ plan.moving.map (·.axis) ↔ ∃ m ∈ plan.members, m.distance ≠ 0 ∧ m.axis = a := by
  simp [PlanRecord.moving, and_assoc]

theorem askedTarget_congr (hlane : (t.lane l).current = (s.lane l).current) (hcues : t.cues = s.cues) :
    askedTarget t l a = askedTarget s l a := by
  simp only [askedTarget, currentStep_congr hcues hlane]

theorem enterRunning_eq (h : (s.lane l).state ≠ .running) :
    enterRunning l s = emitAll [.laneState l (s.lane l).state .running (s.lane l).haltCause]
      (s.updLane l (fun ln => { ln with state := .running, effectiveRate := ln.requestedRate })) := by
  have hne : ((s.updLane l (fun ln => { ln with effectiveRate := ln.requestedRate })).lane l).state ≠ .running := by
    simpa using h
  rw [enterRunning, changeState_eq _ _ hne]
  simp [State.updLane, State.lane, Table.modify_modify]

/-- The events of an accepted plan, in order (R65). -/
def acceptEvents (l : LaneId) (plan : PlanRecord) (s : State) : List EventBody :=
  [.laneState l .planning .releasing (s.lane l).haltCause] ++
    (plan.members.filter (fun m => m.clipped)).map
      (fun m => .targetClipped m.axis l (askedTarget s l m.axis) m.target) ++
    (if ∀ m ∈ plan.members, m.distance = 0 then [.laneState l .releasing .running (s.lane l).haltCause] else [])

theorem acceptEvents_congr (plan : PlanRecord) (hhalt : (t.lane l).haltCause = (s.lane l).haltCause)
    (hcurrent : (t.lane l).current = (s.lane l).current) (hcues : t.cues = s.cues) :
    acceptEvents l plan t = acceptEvents l plan s := by
  simp only [acceptEvents, hhalt, askedTarget_congr hcurrent hcues]

/-- The record of a lane whose plan is accepted: RELEASING, or at once RUNNING when no member moves (R65, R104). -/
def acceptLane (plan : PlanRecord) (ln : Lane) : Lane :=
  { ln with
    state := if ∀ m ∈ plan.members, m.distance = 0 then .running else .releasing
    effectiveRate := if ∀ m ∈ plan.members, m.distance = 0 then ln.requestedRate else ln.effectiveRate
    plan := some plan }

theorem acceptLane_still {plan : PlanRecord} (h : ∀ m ∈ plan.members, m.distance = 0) : acceptLane plan = fun ln =>
    { ln with state := .running, effectiveRate := ln.requestedRate, plan := some plan } := by
  funext ln
  simp only [acceptLane, if_pos h]

theorem acceptLane_moving {plan : PlanRecord} (h : ¬ ∀ m ∈ plan.members, m.distance = 0) : acceptLane plan = fun ln =>
    { ln with state := .releasing, plan := some plan } := by
  funext ln
  simp only [acceptLane, if_neg h]

/-- An accepted plan as one change: the members started, then the lane's record and context, then the events. -/
theorem acceptPlan_eq (plan : PlanRecord) (h : (s.lane l).state = .planning) :
    acceptPlan l plan s = emitAll (acceptEvents l plan s)
      ((((plan.moving.map (·.axis)).foldl startMember s).setContext l (some (newContext plan))).updLane l
        (acceptLane plan)) := by
  set w := ((plan.moving.map (·.axis)).foldl startMember
    ((s.updLane l (fun ln => { ln with plan := some plan })).setContext l (some (newContext plan)))) with hw
  have hwl : w.lane l = { s.lane l with plan := some plan } := by
    rw [hw, startMember_all]
    exact lane_updLane_same _ _ _
  have hwc : w.cues = s.cues := by rw [hw, startMember_all]; rfl
  have hstart : w = (((plan.moving.map (·.axis)).foldl startMember s).setContext l (some (newContext plan))).updLane l
      (fun ln => { ln with plan := some plan }) := by
    rw [hw, startMember_all, startMember_all]
    rfl
  have hne : (w.lane l).state ≠ .releasing := by rw [hwl]; simp [h]
  have hasked : ∀ es b, askedTarget (emitAll es (w.updLane l (fun ln => { ln with state := .releasing }))) l b =
      askedTarget s l b := fun es b => askedTarget_congr
    (show (((w.updLane l (fun ln => { ln with state := .releasing })).lane l).current) = _ by
      rw [lane_updLane_same, hwl]) hwc
  have hreleased : plan.members.foldl (postClipped l) (changeState l .releasing w) =
      emitAll ([.laneState l .planning .releasing (s.lane l).haltCause] ++
        (plan.members.filter (fun m => m.clipped)).map
          (fun m => .targetClipped m.axis l (askedTarget s l m.axis) m.target))
        (w.updLane l (fun ln => { ln with state := .releasing })) := by
    rw [changeState_eq _ _ hne, postClipped_all, emitAll_emitAll, hwl, h]
    simp only [hasked]
  rw [acceptPlan, ← hw, hreleased, acceptEvents]
  by_cases hstill : ∀ m ∈ plan.members, m.distance = 0
  · simp only [if_pos hstill, if_pos ((moving_nil_iff plan).2 hstill)]
    have hrel : ∀ es, (emitAll es (w.updLane l (fun ln => { ln with state := .releasing }))).lane l =
        { w.lane l with state := .releasing } := fun es => lane_updLane_same _ _ _
    rw [enterRunning_eq (by rw [hrel]; simp), hrel, hwl, hstart, ← emitAll_emitAll]
    simp [emitAll, State.updLane, State.updMessages, Table.modify_modify, acceptLane_still hstill]
  · simp only [if_neg hstill, if_neg (mt (moving_nil_iff plan).1 hstill), hstart, List.append_nil]
    simp [State.updLane, Table.modify_modify, acceptLane_moving hstill]

/-- PLAN_RESULT with an OK plan, taken by a PLANNING lane. -/
theorem exec_planResult_ok {plan : PlanRecord} (hstate : (s.lane l).state = .planning)
    (hres : (s.lane l).planResult = some (.ok plan)) :
    exec (.planResult l) s = .next (acceptPlan l plan (s.updLane l (fun ln => { ln with planResult := none }))) := by
  show Host.Outcome.next (takeResult l s) = _
  simp only [takeResult, hstate, hres]

/-- Settles O17: the plan accepted as one change, read record by record. -/
theorem an_ok_plan_releases_its_members : Obligations.an_ok_plan_releases_its_members := by
  intro l s plan hstate hres
  have hplan : ((s.updLane l (fun ln => { ln with planResult := none })).lane l).state = .planning := by simpa using hstate
  refine ⟨_, exec_planResult_ok hstate hres, ?_⟩
  have hevents : acceptEvents l plan (s.updLane l (fun ln => { ln with planResult := none })) = acceptEvents l plan s :=
    acceptEvents_congr plan (by rw [lane_updLane_same]) (by rw [lane_updLane_same]) rfl
  rw [acceptPlan_eq plan hplan, startMember_all, hevents]
  refine ⟨?_, context_setContext_same _ _ _, fun a hmoves hrest => ?_, fun a hstays => ?_, ?_, fun k hk => ⟨?_, ?_⟩, rfl⟩
  · exact (lane_updLane_same _ _ _).trans (congrArg (acceptLane plan) (lane_updLane_same s l _))
  · have hin := (mem_moving_axes plan).2 hmoves
    exact ⟨(Table.get_mapIdx _ _ _).trans (if_pos ⟨hin, hrest⟩),
      (Table.get_mapIdx _ _ _).trans (if_pos ⟨hin, hrest⟩)⟩
  · have hout : ¬ (a ∈ plan.moving.map (·.axis) ∧ (s.axis a).state = .rest) := by
      rw [mem_moving_axes]
      rintro ⟨⟨m, hm, hd, rfl⟩, hr⟩
      exact hstays.elim (fun h => hd (h m hm rfl)) (fun h => h hr)
    exact ⟨(Table.get_mapIdx _ _ _).trans (if_neg hout), (Table.get_mapIdx _ _ _).trans (if_neg hout)⟩
  · simp only [mem_moving_axes]
    rfl
  · refine (Table.get_modify_of_ne _ _ (Ne.symm hk)).trans ?_
    exact Table.get_modify_of_ne _ _ (Ne.symm hk)
  · exact Table.get_set_of_ne _ _ (Ne.symm hk)

end Sys2Proof.Machine

namespace Sys2Proof.Machine

variable {s t u : State} {l k : LaneId} {a b : AxisId}

/-! ### A release that times out (R68, R103) -/

/-- The record of a RELEASING lane that stands down: its plan kept, frozen at the context's profile time, by a resume
alone (R69, R120). -/
def haltedLane (cause : HaltCause) (c : MotionContext) (ln : Lane) : Lane :=
  { ln with
    state := if ln.resume then .held else .ready
    haltCause := cause
    holdLatch := false
    claimSet := if ln.resume then ln.claimSet else []
    plan := if ln.resume then ln.plan.map (fun p => { p with frozen := c.profileTime }) else none }

/-- The axes of a lane that stands down in RELEASING: a fresh start gives them back (R69). -/
def haltedAxes (l : LaneId) (s : State) : Table 48 Axis :=
  if (s.lane l).resume then (restMembers l s).axes else disowned l (restMembers l s).axes

/-- The two forms of a halt in RELEASING as one. -/
theorem releaseHalt_eq (cause : HaltCause) {c : MotionContext} (h : (s.lane l).state = .releasing)
    (hc : s.context l = some c) :
    releaseHalt l cause s = emitAll [.laneState l .releasing (if (s.lane l).resume then .held else .ready) cause]
      { s with
        axes := haltedAxes l s
        contexts := s.contexts.set l none
        lanes := s.lanes.set l (haltedLane cause c (s.lane l)) } := by
  obtain ⟨hfresh, hresume⟩ := releaseHalt_does s l cause c h hc
  have hmod : ∀ f : Lane → Lane, s.lanes.modify l f = s.lanes.set l (f (s.lane l)) := fun f => by
    refine Table.ext_get (fun j => ?_)
    rw [Table.get_modify, Table.get_set]
    rfl
  cases hr : (s.lane l).resume
  · rw [hfresh hr, hmod]
    simp [haltedAxes, haltedLane, hr]
  · rw [hresume hr, hmod]
    simp [haltedAxes, haltedLane, hr]

theorem restMembers_axis : (restMembers l s).axis b =
    if b ∈ (s.lane l).claimSet ∧ (s.axis b).state = .moving then { s.axis b with state := .rest, arriving := false }
    else s.axis b :=
  Table.get_mapIdx _ _ _

theorem restMembers_owner : ((restMembers l s).axis b).owner = (s.axis b).owner := by
  rw [restMembers_axis]
  split <;> rfl

theorem haltedAxes_get : (haltedAxes l s).get b = { (restMembers l s).axis b with
    owner := if (s.lane l).resume = false ∧ (s.axis b).owner = some l then none else (s.axis b).owner } := by
  have howner : ((restMembers l s).axes.get b).owner = (s.axis b).owner := restMembers_owner
  cases hr : (s.lane l).resume
  · simp only [haltedAxes, hr, Bool.false_eq_true, if_false, disowned_get, howner, true_and]
    rfl
  · simp only [haltedAxes, hr, if_true, Bool.true_eq_false, false_and, if_false, ← howner]
    rfl

/-- The axes a release timeout leaves FAULTED: those a fault acts on, and those FAULTED before. -/
theorem fit_or_faulted_iff (st : AxisState) : (st ∈ [AxisState.rest, .moving, .stopping] ∨ st.isFaulted = true) ↔
    st ≠ .offline ∧ st ≠ .unconfigured := by
  cases st <;> simp [AxisState.isFaulted]

/-- What one cause asked for on each of a list of axes leaves, record by record: the axes hit, the state after and what
each record then holds. -/
structure Faulted (cause : FaultCause) (xs hit : List AxisId) (s u : State) : Prop where
  sublist : hit.Sublist xs
  nodup : hit.Nodup
  mem_iff : ∀ b, b ∈ hit ↔ b ∈ xs ∧ (s.axis b).state ∈ [AxisState.rest, .moving, .stopping]
  lane : ∀ k, u.lane k = { s.lane k with
    inbox := (s.lane k).inbox ++ (hit.filter (fun b => decide ((s.axis b).owner = some k))).map .fault }
  axis : ∀ b, u.axis b =
    if b ∈ hit then { s.axis b with state := .faulted cause, arriving := false } else s.axis b
  stop : ∀ b, u.stop b = if b ∈ hit then none else s.stop b
  messages : u.messages = (emitAll (hit.map (fun b => .axisFault b cause (s.axis b).owner)) s).messages
  frame : { u with lanes := s.lanes, axes := s.axes, stops := s.stops, messages := s.messages } = s

theorem applyFault_records (cause : FaultCause) (xs : List AxisId) :
    ∃ hit, Faulted cause xs hit s (xs.foldl (fun t b => applyFault b cause t) s) := by
  obtain ⟨hit, hsub, hnodup, hmem, hfold⟩ := applyFault_all s cause xs
  rw [hfold]
  exact ⟨hit, hsub, hnodup, hmem, fun _ => Table.get_mapIdx _ _ _, fun _ => Table.get_mapIdx _ _ _,
    fun _ => Table.get_mapIdx _ _ _, rfl, rfl⟩

theorem Faulted.contexts {cause : FaultCause} {xs hit : List AxisId} (h : Faulted cause xs hit s u) :
    u.contexts = s.contexts := by
  have hkept := congrArg State.contexts h.frame
  exact hkept

theorem Faulted.period {cause : FaultCause} {xs hit : List AxisId} (h : Faulted cause xs hit s u) :
    u.period = s.period := by
  have hkept := congrArg State.period h.frame
  exact hkept

theorem emitAll_messages_congr {es : List EventBody} (hm : t.messages = u.messages) (hp : t.period = u.period) :
    (emitAll es t).messages = (emitAll es u).messages := by
  simp only [emitAll, State.updMessages, hm, hp]

theorem Faulted.owner {cause : FaultCause} {xs hit : List AxisId} (h : Faulted cause xs hit s u) :
    (u.axis b).owner = (s.axis b).owner := by
  rw [h.axis]
  split <;> rfl

theorem Faulted.isFaulted_iff {cause : FaultCause} {xs hit : List AxisId} (h : Faulted cause xs hit s u) (hb : b ∈ xs) :
    (u.axis b).state.isFaulted = true ↔ (s.axis b).state ≠ .offline ∧ (s.axis b).state ≠ .unconfigured := by
  rw [← fit_or_faulted_iff, h.axis]
  by_cases hh : b ∈ hit
  · simp only [if_pos hh, ((h.mem_iff b).1 hh).2, true_or, iff_true]
    rfl
  · have hunfit : (s.axis b).state ∉ [AxisState.rest, .moving, .stopping] := fun hs => hh ((h.mem_iff b).2 ⟨hb, hs⟩)
    simp only [if_neg hh, hunfit, false_or]

/-- A reported axis that is OFFLINE or UNCONFIGURED is not FAULTED by the timeout. -/
theorem Faulted.unfaulted {cause : FaultCause} {xs hit : List AxisId} (h : Faulted cause xs hit s u) (hb : b ∈ xs)
    (hs : (s.axis b).state = .offline ∨ (s.axis b).state = .unconfigured) : (u.axis b).state.isFaulted = false := by
  rw [← Bool.not_eq_true, h.isFaulted_iff hb]
  exact fun hn => hs.elim hn.1 hn.2

/-- The axis a timeout names is the first reported one that is FAULTED then. -/
theorem timeoutAxis_first {first : AxisId} {before after : List AxisId}
    (hbefore : ∀ y ∈ before, (s.axis y).state.isFaulted = false) (hb : (s.axis b).state.isFaulted = true) :
    timeoutAxis s first (before ++ b :: after) = b := by
  have hnone : before.find? (fun y => (s.axis y).state.isFaulted) = none := by simpa using hbefore
  simp [timeoutAxis, List.find?_append, hnone, hb]

theorem timeoutAxis_none {first : AxisId} {reported : List AxisId}
    (h : ∀ y ∈ reported, (s.axis y).state.isFaulted = false) : timeoutAxis s first reported = first := by
  have hnone : reported.find? (fun y => (s.axis y).state.isFaulted) = none := by simpa using h
  simp [timeoutAxis, hnone]

theorem exec_releaseTimeout {c : MotionContext} {rest : List AxisId} (hstate : (s.lane l).state = .releasing)
    (hc : s.context l = some c) (hexp : c.expiry = some (a :: rest))
    (hfaults : (a :: rest).foldl (fun t b => applyFault b .brakeTimeout t) s = u) :
    exec (.releaseTimeout l) s = .next (releaseHalt l (.fault (timeoutAxis u a (a :: rest))) u) := by
  subst hfaults
  show Host.Outcome.next (expireRelease l s) = _
  simp only [expireRelease, hstate, hc, hexp]
  rfl

/-- Settles O20: the faults as one change, then the halt, read record by record. -/
theorem a_release_timeout_faults_the_untracked : Obligations.a_release_timeout_faults_the_untracked := by
  intro l s c a rest hstate hc hexp
  obtain ⟨hit, hf⟩ := applyFault_records (s := s) .brakeTimeout (a :: rest)
  have hexec := exec_releaseTimeout hstate hc hexp rfl
  generalize (a :: rest).foldl (fun t b => applyFault b .brakeTimeout t) s = u at hf hexec
  refine ⟨_, timeoutAxis u a (a :: rest), hit, _, _, hexec, fun before b after hsplit hbefore hoff hun => ?_,
    fun hall => timeoutAxis_none fun y hy => hf.unfaulted hy (hall y hy), hf.sublist, hf.nodup, hf.mem_iff,
    fun b => rfl, fun k => rfl, ?_⟩
  · rw [hsplit] at hf ⊢
    exact timeoutAxis_first (fun y hy => hf.unfaulted (by simp [hy]) (hbefore y hy))
      ((hf.isFaulted_iff (by simp)).2 ⟨hoff, hun⟩)
  generalize timeoutAxis u a (a :: rest) = x
  have hul : (u.lane l).state = .releasing := by rw [hf.lane]; exact hstate
  have huc : u.context l = some c := (congrArg (Table.get · l) hf.contexts).trans hc
  have hresume : (u.lane l).resume = (s.lane l).resume := by rw [hf.lane]
  have hclaim : (u.lane l).claimSet = (s.lane l).claimSet := by rw [hf.lane]
  have hget : ∀ b, (haltedAxes l u).get b = { (restMembers l u).axis b with
      owner := if (s.lane l).resume = false ∧ (s.axis b).owner = some l then none else (s.axis b).owner } := fun b => by
    rw [haltedAxes_get, hresume, hf.owner]
  rw [releaseHalt_eq _ hul huc]
  refine ⟨?_, fun k hk => ?_, ?_, fun b hb => ⟨?_, ?_⟩, fun b hb hclm hmov => ⟨?_, ?_⟩,
    fun b hb hstay => ⟨?_, ?_⟩, ?_, ?_⟩
  · refine (Table.get_set_same _ _ _).trans ?_
    rw [hf.lane]
    rfl
  · exact (Table.get_set_of_ne _ _ (Ne.symm hk)).trans (hf.lane k)
  · exact congrArg (Table.set · l none) hf.contexts
  · refine (hget b).trans ?_
    rw [restMembers_axis, hf.axis, if_pos hb]
    simp
  · exact (hf.stop b).trans (if_pos hb)
  · have hout : b ∉ hit := fun h => hb (hf.sublist.subset h)
    refine (hget b).trans ?_
    rw [restMembers_axis, hf.axis, if_neg hout, hclaim, if_pos ⟨hclm, hmov⟩]
  · exact (hf.stop b).trans (if_neg fun h => hb (hf.sublist.subset h))
  · refine (hget b).trans ?_
    rw [restMembers_axis, hf.axis, if_neg hb, hclaim, if_neg (fun h => hstay.elim (· h.1) (· h.2))]
  · exact (hf.stop b).trans (if_neg hb)
  · rw [hresume, ← emitAll_emitAll]
    exact emitAll_messages_congr hf.messages hf.period
  · exact congrArg (fun t : State => { t with contexts := s.contexts }) hf.frame

end Sys2Proof.Machine

namespace Sys2Proof.Machine

variable {s t u : State} {l k : LaneId} {a b : AxisId}

/-! ### Arrivals and tracking marks (R8, R102, R103, R112) -/

/-- An update of an axis is its effect on the record the axis holds. -/
theorem updAxis_congr {f g : Axis → Axis} (h : f (s.axis a) = g (s.axis a)) : s.updAxis a f = s.updAxis a g := by
  have htable : s.axes.modify a f = s.axes.modify a g := Table.ext_get (fun j => by
    rw [Table.get_modify, Table.get_modify]
    exact ite_congr rfl (fun _ => h) (fun _ => rfl))
  simp only [State.updAxis, htable]

theorem setContext_same {c : Option MotionContext} (h : s.context l = c) : s.setContext l c = s := by
  have htable : s.contexts.set l c = s.contexts := Table.ext_get (fun j => by
    rw [Table.get_set]
    split
    · next e => rw [← e, ← h]; rfl
    · rfl)
  simp only [State.setContext, htable]

theorem exec_arrival (h : (s.axis a).arriving = true) : exec (.arrival a) s = .next (s.updAxis a (fun ax =>
    { ax with state := if ax.state = .moving then .rest else ax.state, arriving := false })) := by
  show Host.Outcome.next (takeArrival a s) = _
  rw [takeArrival, if_pos h]

theorem exec_trackingMark {n : MarkNotice} (h : s.messages.markNotices.find? (fun x => decide (x.axis = a)) = some n) :
    exec (.trackingMark a) s =
      .next (setMark n (s.updMessages (fun m => { m with markNotices := m.markNotices.erase n }))) := by
  show Host.Outcome.next (takeMark a s) = _
  simp only [takeMark, h]

theorem markMember_open {c : MotionContext} (h : c.expiry = none) : markMember a c =
    { c with members := c.members.map (fun m => if m.axis = a then { m with tracking := true } else m) } := by
  simp [markMember, h]

theorem markMember_expired {c : MotionContext} (h : c.expiry ≠ none) : markMember a c = c := by
  rw [markMember, if_pos (Option.isSome_iff_ne_none.2 h)]

theorem setMark_counts {n : MarkNotice} {c : MotionContext}
    (h : n.tracking = true ∧ n.mode = .follow ∧ n.sinceMoving = true)
    (ho : (s.axis n.axis).owner = some l) (hc : s.context l = some c) :
    setMark n s = s.setContext l (some (markMember n.axis c)) := by
  rw [setMark, if_pos h, ho]
  simp only [hc, Option.map_some]

theorem setMark_idle {n : MarkNotice} (h : ¬ (n.tracking = true ∧ n.mode = .follow ∧ n.sinceMoving = true)) :
    setMark n s = s := if_neg h

/-- Settles O16: the arrival by the axis state, the mark by whether the reply counts and the release is still open. -/
theorem arrivals_and_tracking_marks_are_taken : Obligations.arrivals_and_tracking_marks_are_taken := by
  refine ⟨fun a s harr => ⟨fun hm => ?_, fun hm => ?_⟩, fun a s n l c hn ho hc => ?_⟩
  · rw [exec_arrival harr]
    exact congrArg Host.Outcome.next (updAxis_congr (by rw [if_pos hm]))
  · rw [exec_arrival harr]
    exact congrArg Host.Outcome.next (updAxis_congr (by rw [if_neg hm]))
  · have hna : n.axis = a := by simpa using List.find?_some hn
    subst hna
    rw [exec_trackingMark hn]
    set w := s.updMessages (fun m => { m with markNotices := m.markNotices.erase n }) with hw
    refine ⟨fun he h1 h2 h3 => ?_, fun hout => congrArg Host.Outcome.next ?_⟩
    · rw [setMark_counts (s := w) ⟨h1, h2, h3⟩ ho hc, markMember_open he]
      rfl
    · by_cases hcount : n.tracking = true ∧ n.mode = .follow ∧ n.sinceMoving = true
      · have he := hout.resolve_right (not_not.2 hcount)
        rw [setMark_counts (s := w) hcount ho hc, markMember_expired he]
        exact setContext_same (s := w) hc
      · exact setMark_idle hcount

/-! ### The pin reset (Tables 1-5, 2-4, 3-3, 7-3, 8-4, 9-4, 10-5, 11-1) -/

/-- Settles O2: every table is filled with one reset record. -/
theorem reset_gives_each_record_its_value : Obligations.reset_gives_each_record_its_value := by
  refine ⟨rfl, rfl, rfl, fun a => ?_, fun l => ?_, fun n => reset_slot, free_of_empty fun n => reset_slot, rfl, rfl,
    fun n => Table.get_fill _ _, ?_, fun p => ?_⟩
  · rw [reset_axis]
    exact ⟨rfl, rfl, rfl, rfl, rfl, rfl, rfl, rfl, rfl, reset_station, reset_stop⟩
  · rw [reset_lane]
    exact ⟨rfl, rfl, rfl, rfl, rfl, rfl, rfl, rfl, rfl, rfl, rfl, rfl, rfl, rfl, rfl, rfl, rfl, rfl,
      reset_context, reset_direct⟩
  · decide
  · rw [reset_port]
    exact ⟨rfl, rfl, rfl, rfl, rfl, rfl, rfl, rfl, rfl, rfl, rfl⟩

theorem stopsReachLanes_reset : StopsReachLanes State.reset := by
  intro l
  rw [reset_lane]
  simp [Lane.reset, LaneState.motion]

theorem claimsAgree_reset : ClaimsAgree State.reset := by
  refine ⟨fun l a => ?_, fun l => ?_⟩
  · rw [reset_lane, reset_axis]
    simp [Lane.reset, Axis.reset]
  · rw [reset_lane]
    simp [Lane.reset]

theorem storeLawful_reset : StoreLawful State.reset := by
  refine ⟨fun n st h => ?_, fun l st h => ?_, ?_⟩
  · rw [reset_slot] at h
    cases h
  · rw [reset_direct] at h
    cases h
  · rw [taken_of_empty fun n => reset_slot]
    exact Nat.zero_le _

theorem portsBounded_reset : PortsBounded State.reset := by
  intro p
  rw [reset_port]
  decide

theorem plannerSound_reset : PlannerSound State.reset :=
  ⟨List.nodup_nil, fun _ h => absurd h List.not_mem_nil, fun _ h => absurd h List.not_mem_nil, fun _ h => by cases h⟩

/-- Settles O60: each law holds of the reset records. -/
theorem reset_obeys_every_law : Obligations.reset_obeys_every_law :=
  ⟨stopsReachLanes_reset, claimsAgree_reset, agree_reset, storeLawful_reset, portsBounded_reset, plannerSound_reset,
    inside_reset, Memory.wf_nil⟩

end Sys2Proof.Machine

namespace Sys2Proof.Machine

variable {s t u : State} {l k : LaneId} {a b : AxisId}

/-! ### The GET requests (R18, R33, R48) -/

/-- A search of an ascending list of all numbers finds the first that passes. -/
theorem find_finRange_first {n : Nat} {p : Fin n → Bool} {m : Fin n} (hm : p m = true)
    (hfirst : ∀ k < m, p k = false) : (List.finRange n).find? p = some m := by
  rw [List.find?_eq_some_iff_getElem]
  refine ⟨hm, m.val, by simp, by simp, fun j hj => ?_⟩
  simpa using hfirst ⟨j, hj.trans m.isLt⟩ hj

/-- The scan finds the first present slot from the number on (R48). -/
theorem scanFrom_first {n m : StepNo} {st : Step} (hnm : n ≤ m) (hm : s.cues.slots.get m = some st)
    (hnone : ∀ k : StepNo, n ≤ k → k < m → s.cues.slots.get k = none) : scanFrom s n = some m := by
  rw [scanFrom, Table.indices, List.find?_filter]
  refine find_finRange_first (by simp [hm, hnm]) (fun k hk => ?_)
  by_cases hn : n ≤ k
  · simp [hnone k hn hk]
  · simp [hn]

theorem scanFrom_none {n : StepNo} (hnone : ∀ k : StepNo, n ≤ k → s.cues.slots.get k = none) : scanFrom s n = none := by
  rw [scanFrom, Table.indices, List.find?_filter, List.find?_eq_none]
  intro k _
  by_cases hn : n ≤ k
  · simp [hnone k hn]
  · simp [hn]

theorem getLane_ok {lane : Byte} (h : laneOf lane = some l) : onLane lane getLane s = (s, .ok (laneReport s l)) := by
  rw [onLane, h]
  rfl

theorem getAxis_ok {axis : Byte} (h : axisOf axis = some a) : getAxis axis s = (s, .ok (axisReport s a)) := by
  rw [getAxis, h]

theorem getAxis_badArg {axis : Byte} (h : axisOf axis = none) : getAxis axis s = (s, .refuse .badArg) := by
  rw [getAxis, h]

theorem reportSlot_present {n : StepNo} {st : Step} (h : s.cues.slots.get n = some st) :
    reportSlot s (some n) = .ok (stepReport n.val st (usersOf s n) s.cues.free) := by
  simp only [reportSlot, h]

theorem reportSlot_absent {n : StepNo} (h : s.cues.slots.get n = none) : reportSlot s (some n) = .refuse .noStep := by
  simp only [reportSlot, h]

theorem getStep_slot {number : Half} {n : StepNo} (h : stepOf number = some n) :
    getStep 0 number s = (s, reportSlot s (some n)) := by
  show (s, match stepOf number with | none => Answer.refuse .badArg | some n => reportSlot s (some n)) = _
  rw [h]

theorem getStep_scan {number : Half} {n : StepNo} (h : stepOf number = some n) :
    getStep 1 number s = (s, reportSlot s (scanFrom s n)) := by
  show (s, match stepOf number with | none => Answer.refuse .badArg | some n => reportSlot s (scanFrom s n)) = _
  rw [h]

/-- Selector 2 names a lane's direct step, and a lane number in range finds that lane (R48, R49). -/
theorem getStep_direct_present {number : Half} {st : Step} (h : number.toNat = l.val)
    (hst : s.cues.privates.get l = some st) :
    getStep 2 number s = (s, .ok (stepReport l.val st [] s.cues.free)) := by
  obtain ⟨n, hn⟩ := l
  obtain rfl : number.toNat = n := h
  show (if h : number.toNat < 8 then _ else _) = _
  rw [dif_pos hn, hst]

theorem getStep_direct_absent {number : Half} (h : number.toNat = l.val) (hst : s.cues.privates.get l = none) :
    getStep 2 number s = (s, .refuse .noStep) := by
  obtain ⟨n, hn⟩ := l
  obtain rfl : number.toNat = n := h
  show (if h : number.toNat < 8 then _ else _) = _
  rw [dif_pos hn, hst]

theorem stepOf_none {number : Half} (h : 511 < number.toNat) : stepOf number = none :=
  dif_neg (Nat.not_lt.2 h)

theorem getStep_badArg {selector : Byte} {number : Half} (h : 2 < selector.toNat ∨
    (selector.toNat ≤ 1 ∧ 511 < number.toNat) ∨ (selector.toNat = 2 ∧ 7 < number.toNat)) :
    getStep selector number s = (s, .refuse .badArg) := by
  unfold getStep
  split
  · next e => rw [stepOf_none (by omega)]
  · next e => rw [stepOf_none (by omega)]
  · next e => rw [dif_neg (by omega)]
  · rfl

/-- Settles O35: each request is a read of the state, whose answer is all that it leaves. -/
theorem a_get_request_changes_nothing : Obligations.a_get_request_changes_nothing := by
  intro p tag s
  refine ⟨fun lane l hl ht => serve_ok ht (getLane_ok hl) rfl, fun axis a ha ht => serve_ok ht (getAxis_ok ha) rfl,
    fun number n st hn hst ht => serve_ok ht ?_ rfl, fun number n m st hn hnm hm hnone ht => serve_ok ht ?_ rfl,
    fun number l st hn hst ht => serve_ok ht (getStep_direct_present hn hst) rfl,
    fun number n hn hst ht => serve_refused ht ?_,
    fun number n hn hnone ht => serve_refused ht ?_,
    fun number l hn hst ht => serve_refused ht (getStep_direct_absent hn hst),
    fun axis h ht => serve_refused ht (getAxis_badArg (axisOf_none h)),
    fun selector number h ht => serve_refused ht (getStep_badArg h)⟩
  · rw [getStep_slot hn, reportSlot_present hst]
  · rw [getStep_scan hn, scanFrom_first hnm hm hnone, reportSlot_present hm]
  · rw [getStep_slot hn, reportSlot_absent hst]
  · rw [getStep_scan hn, scanFrom_none hnone]
    rfl

end Sys2Proof.Machine

namespace Sys2Proof.Machine

variable {s t u : State} {l k : LaneId} {a b : AxisId}

/-! ### What the law of claims and owners reads (R22, R23) -/

/-- Of a lane record: its state, its claim set, and whether it holds a plan record. -/
def Lane.holds (ln : Lane) : LaneState × List AxisId × Bool := (ln.state, ln.claimSet, ln.plan.isSome)

/-- Of the part: the owner of every axis, and what every lane holds. -/
def holding (s : State) : (AxisId → Option LaneId) × (LaneId → LaneState × List AxisId × Bool) :=
  (fun a => (s.axis a).owner, fun l => (s.lane l).holds)

theorem holding_eq_iff : holding t = holding s ↔
    (∀ a, (t.axis a).owner = (s.axis a).owner) ∧ ∀ l, (t.lane l).holds = (s.lane l).holds := by
  simp only [holding, Prod.mk.injEq, funext_iff]

/-- A lane without a claim has no plan record, and one that plans has none either, as its state says. -/
def Lane.Lawful (ln : Lane) : Prop :=
  (ln.state = .idle ∨ ln.state = .ready ∨ ln.state = .follow → ln.claimSet = [] ∧ ln.plan = none) ∧
    (ln.state = .planning → ln.plan = none)

/-- The law but for what the state of lane `l` asks of that lane, which is changing. -/
def ClaimsAgreeBut (l : LaneId) (s : State) : Prop :=
  (∀ k a, a ∈ (s.lane k).claimSet ↔ (s.axis a).owner = some k) ∧ ∀ k, k ≠ l → (s.lane k).Lawful

/-- The lane owns nothing and holds no plan record. -/
def LaneFree (l : LaneId) (s : State) : Prop := (s.lane l).claimSet = [] ∧ (s.lane l).plan = none

theorem claimsAgree_iff (l : LaneId) : ClaimsAgree s ↔ ClaimsAgreeBut l s ∧ (s.lane l).Lawful := by
  constructor
  · rintro ⟨hown, hlaw⟩
    exact ⟨⟨hown, fun k _ => hlaw k⟩, hlaw l⟩
  · rintro ⟨⟨hown, hlaw⟩, hl⟩
    refine ⟨hown, fun k => ?_⟩
    by_cases hk : k = l
    · rw [hk]; exact hl
    · exact hlaw k hk

theorem ClaimsAgree.but (h : ClaimsAgree s) : ClaimsAgreeBut l s := ((claimsAgree_iff l).1 h).1

/-- A lane that owns nothing by its state. -/
theorem ClaimsAgree.free (h : ClaimsAgree s)
    (hs : (s.lane l).state = .idle ∨ (s.lane l).state = .ready ∨ (s.lane l).state = .follow) : LaneFree l s :=
  (h.2 l).1 hs

theorem holds_fields {x y : Lane} (h : y.holds = x.holds) :
    y.state = x.state ∧ y.claimSet = x.claimSet ∧ (y.plan = none ↔ x.plan = none) := by
  simp only [Lane.holds, Prod.mk.injEq] at h
  obtain ⟨hstate, hclaim, hplan⟩ := h
  refine ⟨hstate, hclaim, ?_⟩
  rw [← Option.isNone_iff_eq_none, ← Option.isNone_iff_eq_none, ← Option.not_isSome, ← Option.not_isSome, hplan]

theorem Lane.Lawful.of_holds {x y : Lane} (hx : x.Lawful) (h : y.holds = x.holds) : y.Lawful := by
  obtain ⟨hstate, hclaim, hplan⟩ := holds_fields h
  simpa only [Lane.Lawful, hstate, hclaim, hplan] using hx

theorem ClaimsAgreeBut.of_holding (h : ClaimsAgreeBut l s) (e : holding t = holding s) : ClaimsAgreeBut l t := by
  obtain ⟨hown, hlaw⟩ := h
  obtain ⟨howner, hlane⟩ := holding_eq_iff.1 e
  refine ⟨fun k a => ?_, fun k hk => (hlaw k hk).of_holds (hlane k)⟩
  rw [(holds_fields (hlane k)).2.1, howner]
  exact hown k a

theorem ClaimsAgree.of_holding (h : ClaimsAgree s) (e : holding t = holding s) : ClaimsAgree t := by
  obtain ⟨hbut, hlaw⟩ := (claimsAgree_iff 0).1 h
  exact (claimsAgree_iff 0).2 ⟨hbut.of_holding e, hlaw.of_holds ((holding_eq_iff.1 e).2 0)⟩

theorem LaneFree.of_holding (h : LaneFree l s) (e : holding t = holding s) : LaneFree l t := by
  obtain ⟨-, hclaim, hplan⟩ := holds_fields ((holding_eq_iff.1 e).2 l)
  exact ⟨hclaim.trans h.1, hplan.2 h.2⟩

theorem Lane.Lawful.of_free {ln : Lane} (hc : ln.claimSet = []) (hp : ln.plan = none) : ln.Lawful :=
  ⟨fun _ => ⟨hc, hp⟩, fun _ => hp⟩

/-- Nothing is asked of a lane that may hold axes and a plan record. -/
theorem Lane.Lawful.of_state {ln : Lane} (h : ln.state ∈ [LaneState.releasing, .running, .stopping, .held]) :
    ln.Lawful := by
  simp only [List.mem_cons, List.not_mem_nil, or_false] at h
  rcases h with h | h | h | h <;> simp [Lane.Lawful, h]

/-! ### Changes that leave owners and holdings alone -/

/-- A change outside the tables of axes and lanes. -/
theorem holding_same (ha : t.axes = s.axes) (hl : t.lanes = s.lanes) : holding t = holding s := by
  simp only [holding, State.axis, State.lane, ha, hl]

theorem holding_emit (e : EventBody) : holding (s.emit e) = holding s := rfl

theorem holding_setContext (c : Option MotionContext) : holding (s.setContext l c) = holding s := rfl

theorem holding_updLane (f : Lane → Lane) (hf : ∀ ln, (f ln).holds = ln.holds := by intro; rfl) :
    holding (s.updLane l f) = holding s := by
  refine holding_eq_iff.2 ⟨fun _ => rfl, fun k => ?_⟩
  rw [lane_updLane]
  split
  · next e => rw [← e]; exact hf _
  · rfl

theorem holding_axes (axes : Table 48 Axis) (h : ∀ a, (axes.get a).owner = (s.axis a).owner) :
    holding { s with axes := axes } = holding s :=
  holding_eq_iff.2 ⟨h, fun _ => rfl⟩

theorem holding_lanes (lanes : Table 8 Lane) (h : ∀ l, (lanes.get l).holds = (s.lane l).holds) :
    holding { s with lanes := lanes } = holding s :=
  holding_eq_iff.2 ⟨fun _ => rfl, h⟩

theorem holding_updAxis (f : Axis → Axis) (hf : (f (s.axis a)).owner = (s.axis a).owner) :
    holding (s.updAxis a f) = holding s := by
  refine holding_axes _ (fun b => ?_)
  show ((s.updAxis a f).axis b).owner = _
  rw [axis_updAxis]
  split
  · next e => subst e; exact hf
  · rfl

theorem holding_foldl {α : Type} (f : State → α → State) (hf : ∀ s x, holding (f s x) = holding s) (xs : List α)
    (s : State) : holding (xs.foldl f s) = holding s := by
  induction xs generalizing s with
  | nil => rfl
  | cons x rest ih => exact (ih _).trans (hf s x)

theorem holding_ite {p : Prop} [Decidable p] (ht : holding t = holding s) (hu : holding u = holding s) :
    holding (if p then t else u) = holding s := by
  split
  · exact ht
  · exact hu

theorem holding_deliver (m : LaneMessage) : holding (s.deliver l m) = holding s := holding_updLane _

theorem holding_deliverAll (m : LaneMessage) : holding (s.deliverAll m) = holding s :=
  holding_lanes _ (fun k => by rw [Table.get_map]; rfl)

theorem holding_setAxisState (st : AxisState) : holding (setAxisState a st s) = holding s := holding_updAxis _ rfl

theorem holding_setLatch (source : Option Console) : holding (setLatch source s) = holding s := by
  unfold setLatch
  split
  · rfl
  · exact holding_deliverAll _

theorem holding_qualify (line : Line) : holding (qualify line s) = holding s := by
  have hchange : ∀ (high : Bool) (v : State), holding (deliverChange line high v) = holding v := by
    intro high v
    unfold deliverChange
    split
    · exact holding_setLatch _
    · exact holding_deliverAll _
    · exact holding_deliverAll _
    all_goals rfl
  exact holding_ite (hchange _ _) rfl

/-! Setpoints and faults -/

theorem holding_noteWrite (byMotion : Bool) : holding (noteWrite byMotion a s) = holding s := by
  refine holding_foldl _ (fun v n => ?_) _ s
  unfold sendTrip
  split
  · rfl
  · exact (holding_foldl _ (fun _ _ => holding_deliver _) _ _).trans (holding_ite rfl rfl)

theorem holding_moveSetpoint (v : Nat) : holding (moveSetpoint a v s) = holding s :=
  (holding_noteWrite true).trans (holding_updAxis _ rfl)

theorem holding_seed (f : Nat) : holding (seed a f s) = holding s := by
  unfold seed
  split
  · rfl
  · exact (holding_noteWrite false).trans (holding_updAxis _ rfl)

theorem holding_dropSetpoint : holding (dropSetpoint a s) = holding s :=
  (holding_noteWrite false).trans (holding_updAxis _ rfl)

theorem holding_applyFault (cause : FaultCause) : holding (applyFault a cause s) = holding s := by
  have hfault (owner : Option LaneId) (v : State) (hv : holding v = holding s) :
      holding (match owner with | some l => v.deliver l (.fault a) | none => v) = holding s := by
    split
    · exact (holding_deliver _).trans hv
    · exact hv
  unfold applyFault
  split
  · exact hfault _ _ (holding_setAxisState _)
  · exact hfault _ _ (holding_setAxisState _)
  · exact hfault _ _ (holding_setAxisState _)
  · rfl

/-! Members of a lane -/

theorem holding_settleArrivals : holding (settleArrivals l s) = holding s :=
  holding_axes _ (fun b => by rw [Table.get_mapIdx]; split <;> rfl)

theorem holding_restMembers : holding (restMembers l s) = holding s :=
  holding_axes _ (fun b => by rw [Table.get_mapIdx]; split <;> rfl)

theorem holding_brakeMembers : holding (brakeMembers l s) = holding s := by
  refine holding_eq_iff.2 ⟨fun b => ?_, fun _ => rfl⟩
  simp only [brakeMembers, State.axis, Table.get_mapIdx]
  split <;> rfl

theorem holding_haltMember : holding (haltMember l s a) = holding s := by
  unfold haltMember
  exact holding_ite (holding_ite (holding_setAxisState _) (holding_setAxisState _)) rfl

theorem holding_startMember : holding (startMember s a) = holding s := by
  unfold startMember
  split
  · exact holding_updAxis _ rfl
  · rfl

theorem holding_postClipped (m : PlanMember) : holding (postClipped l s m) = holding s := holding_ite rfl rfl

/-! Records of a lane that the law does not read -/

/-- A plan record kept with another profile time is still a plan record. -/
theorem holding_dropContext : holding (dropContext l s) = holding s :=
  (holding_setContext none).trans (holding_updLane _ (fun ln => by simp [Lane.holds]))

theorem holding_recordHalt (cause : HaltCause) : holding (recordHalt l cause s) = holding s :=
  holding_updLane _

theorem holding_clearHold : holding (clearHold l s) = holding s := holding_updLane _

theorem holding_offerCompletion : holding (offerCompletion l s) = holding s :=
  holding_lanes _ (fun k => by rw [Table.get_mapIdx]; split <;> rfl)

theorem holding_setController (c : Option Console) : holding (setController l c s) = holding s :=
  (holding_emit _).trans <| holding_updLane _

theorem holding_takeLane (p : Console) (l : LaneId) (s : State) : holding (takeLane p l s).1 = holding s := by
  unfold takeLane
  split
  · exact holding_setController _
  · split_ifs
    · rfl
    · exact holding_setController _
    · rfl

theorem holding_yieldLane (l : LaneId) (s : State) : holding (yieldLane l s).1 = holding s := by
  unfold yieldLane
  split
  case h_1 | h_2 | h_3 => exact holding_setController _
  all_goals rfl

theorem holding_setHoldLine (source : Byte) (l : LaneId) (s : State) :
    holding (setHoldLine source l s).1 = holding s := by
  unfold setHoldLine
  split
  · rfl
  · exact holding_updLane _

/-! The Planner and the Motion Generator -/

theorem holding_startService : holding (startService s) = holding s := by
  obtain e | ⟨l, queue, e⟩ := startService_cases s <;> rw [e]
  rfl

theorem holding_completePlan : holding (completePlan s) = holding s := by
  unfold completePlan
  split
  · rfl
  · exact holding_startService.trans (holding_ite rfl (holding_ite (holding_updLane _) rfl))

theorem holding_evaluateMember (ramp time : Nat) (m : PlanMember) :
    holding (evaluateMember l ramp time s m) = holding s := by
  have hmove (v : Nat) (sr : Int) : holding (noteEvaluation l m.axis sr (moveSetpoint m.axis v s)) = holding s :=
    holding_moveSetpoint v
  unfold evaluateMember
  exact holding_ite (holding_ite ((holding_updAxis _ rfl).trans (hmove _ _)) (hmove _ _)) rfl

theorem holding_generatorWork (l : LaneId) (s : State) : holding (generatorWork l s) = holding s := by
  have hrun (c : MotionContext) (plan : PlanRecord) : holding (runningWork l c plan s) = holding s := by
    have hmembers (time : Nat) (v : State) (hv : holding v = holding s) :
        holding (plan.moving.foldl (evaluateMember l plan.ramp time) v) = holding s :=
      (holding_foldl _ (fun _ _ => holding_evaluateMember _ _ _) _ v).trans hv
    have hrate (rate : Nat) (c : MotionContext) :
        holding ((s.updLane l (fun ln => { ln with effectiveRate := rate })).setContext l (some c)) = holding s :=
      (holding_setContext _).trans (holding_updLane _)
    unfold runningWork
    exact holding_ite (hmembers _ _ (hrate _ _)) (hmembers _ _ (hrate _ _))
  unfold generatorWork
  split
  · rfl
  · split
    · split
      · rfl
      · exact hrun _ _
      · rfl
    · rfl

theorem holding_beginPeriod : holding (beginPeriod s) = holding s :=
  holding_eq_iff.2 ⟨fun _ => rfl, fun l => by simp only [beginPeriod, State.lane, Table.get_map]; rfl⟩

theorem holding_takeArrival : holding (takeArrival a s) = holding s := holding_ite (holding_updAxis _ rfl) rfl

theorem holding_takeMark : holding (takeMark a s) = holding s := by
  unfold takeMark
  split
  · rfl
  · refine holding_ite ?_ rfl
    split <;> rfl

/-! The Axis Table and the Supervisor -/

theorem holding_stationOnline (f : Nat) : holding (stationOnline a f s) = holding s :=
  holding_ite ((holding_seed f).trans (holding_setAxisState _)) rfl

theorem holding_takeOnlineNotice : holding (takeOnlineNotice a s) = holding s := by
  unfold takeOnlineNotice
  split
  · split
    · exact holding_ite rfl (holding_stationOnline _)
    · rfl
  · rfl

theorem holding_stationLost : holding (stationLost a s) = holding s := by
  unfold stationLost
  split
  · exact holding_dropSetpoint.trans (holding_setAxisState _)
  · exact holding_applyFault _
  · exact holding_applyFault _
  all_goals rfl

theorem holding_takeLostNotice : holding (takeLostNotice a s) = holding s := by
  unfold takeLostNotice
  split
  · split
    · exact holding_stationLost
    · rfl
  · rfl

theorem holding_takeFaultRequest (cause : FaultCause) : holding (takeFaultRequest a cause s) = holding s :=
  holding_ite (holding_applyFault _) rfl

theorem holding_takeReplyCheck : holding (takeReplyCheck a s) = holding s := by
  have hwarn (c : ReplyCheck) (v : State) : holding (warnLoad c v) = holding v := by
    unfold warnLoad
    dsimp only
    split
    · rfl
    · split_ifs
      · exact holding_updAxis _ rfl
      · exact holding_updAxis _ rfl
      · exact holding_updAxis _ rfl
      · rfl
  unfold takeReplyCheck
  split
  · rfl
  · unfold checkReply
    split
    · rfl
    · exact hwarn _ _

theorem holding_returnToRest : holding (returnToRest a s) = holding s := by
  unfold returnToRest
  dsimp only
  split
  · exact (holding_seed _).trans (holding_setAxisState _)
  · exact holding_setAxisState _

theorem holding_configureAxis (c : AxisConfig) : holding (configureAxis a c s) = holding s := by
  have hinstall : holding (installConfig a c s) = holding s := holding_dropSetpoint.trans (holding_updAxis _ rfl)
  unfold configureAxis
  split
  · exact holding_ite (holding_updAxis _ rfl) hinstall
  · exact hinstall

theorem holding_removeAxis : holding (removeAxis a s) = holding s :=
  holding_updAxis (fun ax => { Axis.reset with lock := ax.lock, owner := ax.owner }) rfl

theorem holding_lockSet (value mask : BitVec 48) (s : State) : holding (lockSet value mask s).1 = holding s :=
  holding_axes _ (fun b => by rw [Table.get_mapIdx]; split <;> rfl)

theorem holding_install (c : Configuration) : holding (install c s) = holding s := by
  refine holding_eq_iff.2 ⟨fun b => ?_, fun _ => rfl⟩
  simp only [install, State.axis, Table.get_mapIdx]
  split <;> rfl

/-! The Drive Link -/

theorem holding_driveRound : holding (driveRound s) = holding s := by
  unfold driveRound
  split
  · split
    · rfl
    · split <;> rfl
  · rfl

theorem holding_takeSlot (e : StationEntry) (o : ReplyOutcome) : holding (takeSlot a e o s) = holding s := by
  have hstore : holding (storeEntry a e (takeOutcome o e) s) = holding s := holding_ite rfl (holding_ite rfl rfl)
  have hcopy (r : Reply) (v : State) : holding (copyReply a r v) = holding v :=
    holding_updAxis _ (by split <;> rfl)
  have hmotion (r : Reply) (fr : FrameRecord) (v : State) : holding (handToMotion a r fr v) = holding v :=
    holding_ite rfl rfl
  have hlatch (f : Nat) (v : State) : holding (seedUnderLatch a f v) = holding v := holding_ite (holding_seed _) rfl
  have hhand (r : Reply) (fr : FrameRecord) (online : Bool) (v : State) : holding (handOn a r fr online v) = holding v := by
    have hgiven : holding (handToSupervisor a r fr (copyReply a r v)) = holding v := hcopy r v
    unfold handOn
    exact (hmotion _ _ _).trans ((hlatch _ _).trans (holding_ite hgiven hgiven))
  unfold takeSlot
  dsimp only
  split
  · exact (hhand _ _ _ _).trans hstore
  · exact hstore

theorem holding_statusFrame (latency : Nat) (bytes : List Byte) : holding (statusFrame latency bytes s) = holding s := by
  unfold statusFrame
  split
  · rfl
  · split
    · rfl
    · split
      · rfl
      · exact holding_takeSlot _ _

theorem holding_windowExpiry : holding (windowExpiry s) = holding s := by
  unfold windowExpiry
  split
  · rfl
  · split
    · rfl
    · exact holding_takeSlot _ _

/-! The Console Ports, the stores and the Image Loader -/

theorem holding_offerAll : holding (offerAll s) = holding s := by
  rw [offerAll_eq]
  rfl

theorem holding_offerOldest : holding (offerOldest s) = holding s := by
  unfold offerOldest
  split <;> rfl

theorem holding_judgeFrame (p : Console) : holding (judgeFrame p s) = holding s := by
  have hadmit (f : ConsoleFrame) (v : State) : holding (admitFrame p f v) = holding v := by
    unfold admitFrame
    split <;> rfl
  unfold judgeFrame
  split
  · rfl
  · exact holding_ite (hadmit _ _) rfl

/-- After its change a request only offers events and leaves its reply. -/
theorem holding_finish (p : Console) (tag kind : Byte) (act : State → State × Answer) :
    holding (finish p tag kind act s) = holding (act s).1 :=
  (holding_ite rfl holding_offerAll : holding (offerNew s.messages.posted.length (act s).1) = _)

theorem holding_putStep (step : Half) (b : RawStep) (s : State) : holding (putStep step b s).1 = holding s := by
  unfold putStep
  split
  · split_ifs <;> rfl
  · rfl

theorem holding_dropStep (step : Half) (s : State) : holding (dropStep step s).1 = holding s := by
  unfold dropStep
  split
  · rfl
  · split_ifs <;> rfl

theorem holding_putPair (pair upper lower : Byte) (gap : Half) (s : State) :
    holding (putPair pair upper lower gap s).1 = holding s := by
  unfold putPair
  split
  · rfl
  · split
    · rfl
    · split
      · split_ifs <;> rfl
      · rfl

theorem holding_dropPair (pair : Byte) (s : State) : holding (dropPair pair s).1 = holding s := by
  unfold dropPair
  split
  · rfl
  · split <;> rfl

theorem holding_getStation (axis clear : Byte) (s : State) : holding (getStation axis clear s).1 = holding s := by
  unfold getStation
  split
  · rfl
  · split
    · rfl
    · split
      · rfl
      · exact holding_ite rfl rfl

theorem holding_setFilter (p : Console) (filter : Byte) (s : State) : holding (setFilter p filter s).1 = holding s := by
  unfold setFilter
  split <;> rfl

theorem holding_clearEStop (p : Console) (s : State) : holding (clearEStop p s).1 = holding s := by
  unfold clearEStop
  split_ifs <;> rfl

theorem holding_saveImage (p : Console) (s : State) : holding (saveImage p s).1 = holding s := by
  unfold saveImage
  split <;> rfl

theorem holding_completeSave (bad : List (Nat × Byte)) : holding (completeSave bad s) = holding s := by
  unfold completeSave
  split
  · rfl
  · dsimp only
    split <;> exact holding_same rfl rfl

theorem holding_completeLoad (found : List (Nat × Byte)) : holding (completeLoad found s) = holding s := by
  unfold completeLoad
  exact holding_ite (holding_offerAll.trans ((holding_emit _).trans ((holding_install _).trans (holding_same rfl rfl)))) rfl

end Sys2Proof.Machine

namespace Sys2Proof.Machine

variable {s t u : State} {l k : LaneId} {a b : AxisId}

/-! ### The claim tests (Table 2-3) -/

theorem claimTest_own (h : (s.axis a).owner = some l) : claimTest s l a = none := by
  simp only [claimTest, h, if_true]

theorem claimTest_unavailable (ho : (s.axis a).owner ≠ some l) (hs : (s.axis a).state = .unconfigured ∨
    (s.axis a).state = .offline ∨ ∃ c, (s.axis a).state = .faulted c) :
    claimTest s l a = some ⟨.unavailable, some a, none⟩ := by
  rcases hs with h | h | ⟨c, h⟩ <;> simp only [claimTest, if_neg ho, h]

theorem claimTest_locked (ho : (s.axis a).owner ≠ some l) (hs : (s.axis a).state ∈ [AxisState.rest, .moving, .stopping])
    (hl : (s.axis a).lock = true) : claimTest s l a = some ⟨.locked, some a, none⟩ := by
  simp only [List.mem_cons, List.not_mem_nil, or_false] at hs
  rcases hs with h | h | h <;> simp only [claimTest, if_neg ho, h, hl, if_true]

theorem claimTest_conflict (ho : (s.axis a).owner = some k) (hk : k ≠ l)
    (hs : (s.axis a).state ∈ [AxisState.rest, .moving, .stopping]) (hl : (s.axis a).lock = false) :
    claimTest s l a = some ⟨.conflict, some a, some k⟩ := by
  simp only [List.mem_cons, List.not_mem_nil, or_false] at hs
  rcases hs with h | h | h <;> simp [claimTest, ho, hk, h, hl]

theorem claimTest_unowned (ho : (s.axis a).owner = none) (hs : (s.axis a).state ∈ [AxisState.rest, .moving, .stopping])
    (hl : (s.axis a).lock = false) : claimTest s l a = none := by
  simp only [List.mem_cons, List.not_mem_nil, or_false] at hs
  rcases hs with h | h | h <;> simp [claimTest, ho, h, hl]

theorem AxisState.fit_or_unfit (st : AxisState) : st ∈ [AxisState.rest, .moving, .stopping] ∨
    st = .unconfigured ∨ st = .offline ∨ ∃ c, st = .faulted c := by
  cases st <;> simp

/-- Settles O32, test by test in the order of Table 2-3. -/
theorem the_claim_tests_are_made_in_order : Obligations.the_claim_tests_are_made_in_order := by
  intro s l a
  refine ⟨claimTest_own, fun ho => ⟨claimTest_unavailable ho, fun hs => ⟨claimTest_locked ho hs, fun hl =>
    ⟨fun m hm => claimTest_conflict hm (fun e => ho (e ▸ hm)) hs hl, fun hn => claimTest_unowned hn hs hl⟩⟩⟩⟩

/-- An axis that passes its claim test is not another lane's. -/
theorem claimTest_passed (h : claimTest s l a = none) : (s.axis a).owner = none ∨ (s.axis a).owner = some l := by
  cases ho : (s.axis a).owner with
  | none => exact .inl rfl
  | some k =>
    by_cases hk : k = l
    · exact .inr (by rw [hk])
    · have hne : (s.axis a).owner ≠ some l := by simpa [ho] using hk
      rcases AxisState.fit_or_unfit (s.axis a).state with hs | hs
      · cases hl : (s.axis a).lock
        · rw [claimTest_conflict ho hk hs hl] at h; cases h
        · rw [claimTest_locked hne hs hl] at h; cases h
      · rw [claimTest_unavailable hne hs] at h; cases h

/-! ### One lane's changes of its holdings -/

/-- A lane's record changed in anything but its claim set. -/
theorem ClaimsAgreeBut.updLane (h : ClaimsAgreeBut l s) (f : Lane → Lane)
    (hf : ∀ ln, (f ln).claimSet = ln.claimSet := by intro; rfl) :
    ClaimsAgreeBut l (s.updLane l f) := by
  obtain ⟨hown, hlaw⟩ := h
  refine ⟨fun k a => ?_, fun k hk => ?_⟩
  · have hclaim : ((s.updLane l f).lane k).claimSet = (s.lane k).claimSet := by
      rw [lane_updLane]
      split
      · next e => rw [← e]; exact hf _
      · rfl
    rw [hclaim]
    exact hown k a
  · rw [lane_updLane, if_neg hk.symm]
    exact hlaw k hk

theorem ClaimsAgreeBut.changeState (h : ClaimsAgreeBut l s) (st : LaneState) :
    ClaimsAgreeBut l (changeState l st s) := by
  unfold Machine.changeState
  dsimp only
  split
  · exact h
  · exact (h.updLane _).of_holding (holding_emit _)

theorem lane_release : (release l s).lane k = if k = l then { s.lane k with claimSet := [] } else s.lane k := by
  refine (Table.get_modify _ _ _ _).trans ?_
  split
  · next e => rw [if_pos e.symm, e]; rfl
  · next e => rw [if_neg (Ne.symm e)]; rfl

theorem owner_release : ((release l s).axis a).owner = if (s.axis a).owner = some l then none else (s.axis a).owner := by
  show ((disowned l s.axes).get a).owner = _
  rw [disowned_get]
  rfl

/-- A release takes owner and claim set at once (R37). -/
theorem ClaimsAgreeBut.release (h : ClaimsAgreeBut l s) : ClaimsAgreeBut l (release l s) := by
  obtain ⟨hown, hlaw⟩ := h
  refine ⟨fun k a => ?_, fun k hk => ?_⟩
  · rw [lane_release, owner_release]
    by_cases hk : k = l
    · rw [if_pos hk, hk]
      split_ifs with ho
      · simp
      · simpa using ho
    · have hown := hown k a
      rw [if_neg hk]
      split_ifs with ho
      · simpa [ho, Ne.symm hk] using hown
      · exact hown
  · rw [lane_release, if_neg hk]
    exact hlaw k hk

/-- A claim that passes its tests gives owner and claim set at once (R35). -/
theorem ClaimsAgreeBut.grant (h : ClaimsAgreeBut l s) {as : List AxisId} (htests : ∀ b ∈ as, claimTest s l b = none) :
    ClaimsAgreeBut l (grant l as s) := by
  obtain ⟨hown, hlaw⟩ := h
  have hother {k : LaneId} (hk : k ≠ l) : (Machine.grant l as s).lane k = s.lane k := Table.get_modify_of_ne _ _ hk.symm
  refine ⟨fun k a => ?_, fun k hk => ?_⟩
  · rw [grant_axis]
    by_cases hk : k = l
    · rw [hk, grant_claimSet]
      dsimp only
      split_ifs with ha ho <;> simp [*]
    · rw [hother hk, hown k a]
      dsimp only
      split_ifs with ha ho
      · rcases claimTest_passed (htests a ha) with ho | ho <;> simp [ho, Ne.symm hk]
      · simp [ho, Ne.symm hk]
      · rfl
  · rw [hother hk]
    exact hlaw k hk

/-! ### A lane's change of state -/

/-- A lane takes a state in which it may hold what it holds. -/
theorem ClaimsAgreeBut.enters (h : ClaimsAgreeBut l s) {st : LaneState}
    (hl : ({ s.lane l with state := st } : Lane).Lawful) : ClaimsAgree (Machine.changeState l st s) :=
  (claimsAgree_iff l).2 ⟨h.changeState st, by rw [changeState_lane]; exact hl⟩

/-- A lane that owns nothing and has no plan record may take any state. -/
theorem ClaimsAgreeBut.enters_free (h : ClaimsAgreeBut l s) (hf : LaneFree l s) (st : LaneState) :
    ClaimsAgree (Machine.changeState l st s) :=
  h.enters (.of_free hf.1 hf.2)

/-- A lane that is moving, stopping or held may own axes and have a plan record. -/
theorem ClaimsAgreeBut.enters_holding (h : ClaimsAgreeBut l s) {st : LaneState}
    (hs : st ∈ [LaneState.releasing, .running, .stopping, .held]) : ClaimsAgree (Machine.changeState l st s) :=
  h.enters (.of_state hs)

theorem claims_endFollow (h : ClaimsAgree s) (hs : (s.lane l).state = .follow) : ClaimsAgree (endFollow l s) := by
  have e : holding (s.updLane l (fun ln => { ln with followDue := false, decrements := 0 })) = holding s :=
    holding_updLane _
  exact (h.of_holding e).but.enters_free ((h.free (.inr (.inr hs))).of_holding e) _

/-- The axes and the plan record given up: the lane is free (R59, R60, R66). -/
theorem claims_letGo (h : ClaimsAgreeBut l s) : ClaimsAgreeBut l (letGo l s) ∧ LaneFree l (letGo l s) := by
  refine ⟨(h.updLane _).release, ?_⟩
  rw [LaneFree, letGo, lane_release, if_pos rfl, lane_updLane_same]
  exact ⟨rfl, rfl⟩

/-- A fresh start stands down free, a resume HELD (R66 to R69). -/
theorem claims_standDown (h : ClaimsAgreeBut l s) : ClaimsAgree (standDown l s) := by
  have hclear : ClaimsAgreeBut l (clearHold l s) := h.of_holding holding_clearHold
  unfold standDown
  dsimp only
  split
  · exact hclear.enters_holding (by simp)
  · obtain ⟨hbut, hfree⟩ := claims_letGo hclear
    exact hbut.enters_free hfree _

theorem claims_endTest (h : ClaimsAgree s) : ClaimsAgree (endTest l s) := by
  unfold endTest
  split
  · have e : holding (dropContext l (s.updLane l (fun ln => { ln with holdLatch := false }))) = holding s :=
      holding_dropContext.trans (holding_updLane _)
    exact (h.of_holding e).but.enters_holding (by simp)
  · exact h

theorem claims_enterRunning (h : ClaimsAgreeBut l s) : ClaimsAgree (enterRunning l s) :=
  (h.updLane _).enters_holding (by simp)

/-! ### GO and the automatic GO (R61 to R63) -/

theorem holding_joinQueue : holding (joinQueue l s) = holding s := holding_startService

/-- A GO that passes its checks leaves the lane PLANNING with its claim and without a plan record. -/
theorem claims_enterPlanning {c : Option Console} (resume : Bool) (h : ClaimsAgree s) (hgo : goChecks l c s = .ok t) :
    ClaimsAgree (enterPlanning l resume t) := by
  obtain ⟨st, -, rfl, htests⟩ := goChecks_ok hgo
  refine ClaimsAgree.of_holding (((h.but.grant htests).updLane _).enters ?_) holding_joinQueue
  rw [lane_updLane_same]
  exact ⟨fun e => by simp at e, fun _ => rfl⟩

theorem claims_automaticGo (h : ClaimsAgree s) (hs : (s.lane l).state = .follow) : ClaimsAgree (automaticGo l s) := by
  unfold automaticGo
  split
  · next hgo => exact claims_enterPlanning false h hgo
  · exact (claims_endFollow h hs).of_holding (holding_emit _)

/-- A count taken in FOLLOW, with the automatic GO behind it. -/
theorem claims_counted (h : ClaimsAgree s) (hs : (s.lane l).state = .follow) (f : Lane → Lane)
    {n : Nat} (hf : ∀ ln, (f ln).holds = ln.holds := by intro; rfl) :
    ClaimsAgree (if n ≤ 1 then automaticGo l (s.updLane l f) else s.updLane l f) := by
  have hc : ClaimsAgree (s.updLane l f) := h.of_holding (holding_updLane _ hf)
  split
  · refine claims_automaticGo hc ?_
    rw [lane_updLane_same, (holds_fields (hf _)).1, hs]
  · exact hc

theorem claims_followCount (l : LaneId) (h : ClaimsAgree s) : ClaimsAgree (followCount l s) := by
  unfold followCount
  dsimp only
  split
  · next hs => exact claims_counted h hs.1 _
  · exact h

theorem claims_linkedCount (l : LaneId) (h : ClaimsAgree s) : ClaimsAgree (linkedCount l s) := by
  unfold linkedCount
  dsimp only
  split
  · next hs => exact claims_counted h hs.1 _
  · exact h

/-! ### Halts (Table 7-2) -/

theorem holding_askWithdrawal : holding (askWithdrawal l s) = holding s := rfl

theorem claims_planningHalt (cause : HaltCause) (h : ClaimsAgree s) : ClaimsAgree (planningHalt l cause s) :=
  claims_standDown (h.but.of_holding
    (holding_askWithdrawal.trans ((holding_recordHalt cause).trans (holding_updLane _))))

theorem claims_releaseHalt (cause : HaltCause) (h : ClaimsAgree s) : ClaimsAgree (releaseHalt l cause s) :=
  claims_standDown (h.but.of_holding
    (holding_dropContext.trans (holding_restMembers.trans (holding_recordHalt cause))))

theorem claims_controlledStop (cause : HaltCause) (h : ClaimsAgree s) : ClaimsAgree (controlledStop l cause s) := by
  have e : holding ((s.lane l).claimSet.foldl (haltMember l) (recordHalt l cause (settleArrivals l s))) = holding s :=
    (holding_foldl _ (fun _ _ => holding_haltMember) _ _).trans ((holding_recordHalt cause).trans holding_settleArrivals)
  exact claims_endTest ((h.but.of_holding e).enters_holding (by simp))

theorem claims_emergencyHold (h : ClaimsAgree s) : ClaimsAgree (emergencyHold l s) :=
  ClaimsAgreeBut.enters_holding (h.but.of_holding (holding_clearHold.trans (holding_dropContext.trans
    ((holding_recordHalt _).trans holding_brakeMembers)))) (by simp)

theorem claims_haltLane (l : LaneId) (cause : HaltCause) (h : ClaimsAgree s) : ClaimsAgree (haltLane l cause s) := by
  unfold haltLane
  split
  · exact claims_planningHalt cause h
  · exact claims_releaseHalt cause h
  · exact claims_controlledStop cause h
  · next hs =>
    refine claims_endFollow (h.of_holding (holding_recordHalt cause)) ?_
    rw [recordHalt, lane_updLane_same, hs]
  all_goals exact h

theorem claims_emergencyLane (l : LaneId) (h : ClaimsAgree s) : ClaimsAgree (emergencyLane l s) := by
  unfold emergencyLane
  split
  · exact claims_planningHalt _ h
  · exact claims_emergencyHold h
  · exact claims_emergencyHold h
  · exact claims_emergencyHold h
  all_goals exact h

theorem claims_enableLoss (l : LaneId) (c : Console) (h : ClaimsAgree s) : ClaimsAgree (enableLoss l c s) := by
  unfold enableLoss
  split
  · exact claims_haltLane l _ h
  · exact h

theorem claims_faultNotice (l : LaneId) (a : AxisId) (h : ClaimsAgree s) : ClaimsAgree (faultNotice l a s) := by
  unfold faultNotice
  split
  · split
    · exact claims_releaseHalt _ h
    · exact claims_controlledStop _ h
    · exact claims_endTest h
    all_goals exact h
  · exact h

theorem claims_interlockTrip (l : LaneId) (n : PairId) (h : ClaimsAgree s) : ClaimsAgree (interlockTrip l n s) := by
  unfold interlockTrip
  split
  · exact h
  · split
    · exact claims_controlledStop _ h
    · exact h

theorem claims_holdAssertion (l : LaneId) (n : HoldLine) (h : ClaimsAgree s) : ClaimsAgree (holdAssertion l n s) := by
  have hlatch : ClaimsAgree (s.updLane l (fun ln => { ln with holdLatch := true })) :=
    h.of_holding (holding_updLane _)
  unfold holdAssertion
  split
  · split
    · exact hlatch
    · exact hlatch
    · exact hlatch
    · next hs =>
      refine claims_endFollow (h.of_holding holding_clearHold) ?_
      rw [clearHold, lane_updLane_same, hs]
    all_goals exact h
  · exact h

/-- A delivery leaves the inbox, and what acting on it keeps is kept. -/
theorem claims_takeDelivery (m : LaneMessage) {act : State → State} (hact : ∀ {s}, ClaimsAgree s → ClaimsAgree (act s))
    (h : ClaimsAgree s) : ClaimsAgree (takeDelivery l m act s) := by
  unfold takeDelivery
  split
  · exact hact (h.of_holding (holding_updLane _))
  · exact h

theorem claims_takeNotice (l : LaneId) (a : AxisId) (h : ClaimsAgree s) : ClaimsAgree (takeNotice l a s) := by
  unfold takeNotice
  split
  · exact claims_takeDelivery _ (claims_faultNotice l a) h
  · exact h

/-! ### Plan results, releases and stop steps -/

theorem claims_acceptPlan (plan : PlanRecord) (h : ClaimsAgreeBut l s) : ClaimsAgree (acceptPlan l plan s) := by
  set s1 := (s.updLane l (fun ln => { ln with plan := some plan })).setContext l (some (newContext plan)) with hs1
  set s2 := (plan.moving.map (·.axis)).foldl startMember s1 with hs2
  have h1 : ClaimsAgreeBut l s1 := (h.updLane _).of_holding (holding_setContext _)
  have h2 : ClaimsAgreeBut l s2 := h1.of_holding (holding_foldl startMember (fun _ _ => holding_startMember) _ _)
  have h3 : ClaimsAgree (plan.members.foldl (postClipped l) (changeState l .releasing s2)) :=
    ClaimsAgree.of_holding (h2.enters_holding (by simp))
      (holding_foldl (postClipped l) (fun _ _ => holding_postClipped _) _ _)
  unfold acceptPlan
  dsimp only
  rw [← hs1, ← hs2]
  split
  · exact claims_enterRunning h3.but
  · exact h3

theorem claims_rejectPlan (reason : VoidReason) (h : ClaimsAgreeBut l s) : ClaimsAgree (rejectPlan l reason s) :=
  claims_standDown (h.of_holding (holding_emit _))

theorem claims_takeResult (l : LaneId) (h : ClaimsAgree s) : ClaimsAgree (takeResult l s) := by
  have hclear : ClaimsAgreeBut l (s.updLane l (fun ln => { ln with planResult := none })) :=
    h.but.updLane _
  unfold takeResult
  split
  · dsimp only
    split
    · exact claims_acceptPlan _ hclear
    · exact claims_rejectPlan _ hclear
    · exact claims_rejectPlan _ hclear
    · exact claims_rejectPlan _ hclear
  · exact h

theorem claims_endRelease (l : LaneId) (h : ClaimsAgree s) : ClaimsAgree (endRelease l s) := by
  unfold endRelease
  split
  · split
    · exact claims_enterRunning h.but
    · exact h
  · exact h

theorem claims_expireRelease (l : LaneId) (h : ClaimsAgree s) : ClaimsAgree (expireRelease l s) := by
  unfold expireRelease
  split
  · split
    · exact claims_standDown (h.but.of_holding (holding_dropContext.trans (holding_restMembers.trans
        ((holding_recordHalt _).trans (holding_foldl _ (fun _ _ => holding_applyFault _) _ s)))))
    · exact h
  · exact h

theorem claims_stopStep (a : AxisId) (h : ClaimsAgree s) : ClaimsAgree (stopStep a s) := by
  have hmove (v : Nat) (t : State) (ht : holding t = holding s) : ClaimsAgree (moveSetpoint a v t) :=
    h.of_holding ((holding_moveSetpoint v).trans ht)
  have hrest (t : State) (ht : ClaimsAgree t) : ClaimsAgree ((setAxisState a .rest t).setStop a none) :=
    ht.of_holding (holding_setAxisState _)
  unfold stopStep
  split
  · split
    · unfold trajectoryStep
      dsimp only
      split
      · split
        · exact claims_endTest (hrest _ (hmove _ _ (holding_ite rfl rfl)))
        · exact hrest _ (hmove _ _ (holding_ite rfl rfl))
      · exact hmove _ _ (holding_ite rfl rfl)
    · exact h
  · exact h

/-! ### Step completion (R74 to R76) -/

/-- A closed step leaves its lane free (R74). -/
theorem claims_closeStep (h : ClaimsAgree s) : ClaimsAgree (closeStep l s) ∧ LaneFree l (closeStep l s) := by
  set s1 := release l ((settleArrivals l s).setContext l none) with hs1
  have h1 : ClaimsAgreeBut l s1 :=
    (h.but.of_holding ((holding_setContext none).trans holding_settleArrivals)).release
  have hclaim : (s1.lane l).claimSet = [] := by rw [hs1, lane_release, if_pos rfl]
  unfold closeStep
  dsimp only
  rw [← hs1]
  set f : Lane → Lane := fun x => { x with
    plan := none
    lastCompleted := some ⟨(s.lane l).current.getD .direct, s.period, (s.lane l).resume, _⟩ } with hf
  have hfree : LaneFree l (s1.updLane l f) := by
    rw [LaneFree, lane_updLane_same]
    exact ⟨hclaim, rfl⟩
  have h2 : ClaimsAgree (s1.updLane l f) :=
    (claimsAgree_iff l).2 ⟨h1.updLane f (fun _ => rfl), .of_free hfree.1 hfree.2⟩
  exact ⟨h2.of_holding (holding_offerCompletion.trans (holding_emit _)),
    hfree.of_holding (holding_offerCompletion.trans (holding_emit _))⟩

theorem claims_endSequence (broken : Bool) (h : ClaimsAgree s) (hf : LaneFree l s) :
    ClaimsAgree (endSequence l broken s) := by
  have e (ev : EventBody) : holding ((s.updLane l (fun ln => { ln with seqEnd := true, holdLatch := false })).emit ev) =
      holding s := (holding_emit _).trans (holding_updLane _)
  exact (h.but.of_holding (e _)).enters_free (hf.of_holding (e _)) _

theorem claims_enterFollow (kind : FollowKind) (count : Nat) (h : ClaimsAgree s) (hf : LaneFree l s) :
    ClaimsAgree (enterFollow l kind count s) := by
  have e : holding (s.updLane l (fun ln => { ln with
      followCounter := count, followKind := some kind, followDue := false, decrements := 0 })) = holding s :=
    holding_updLane _
  have hfollow := (h.but.of_holding e).enters_free (hf.of_holding e) .follow
  unfold enterFollow
  dsimp only
  split
  · exact claims_automaticGo hfollow (changeState_state _)
  · exact hfollow

theorem claims_continueSequence (mode : FollowMode) (h : ClaimsAgree s) (hf : LaneFree l s) :
    ClaimsAgree (continueSequence l mode s) := by
  unfold continueSequence
  split
  · exact (h.but.of_holding holding_clearHold).enters_free (hf.of_holding holding_clearHold) _
  · split
    · exact h.but.enters_free hf _
    · exact claims_enterFollow _ _ h hf
    · split
      · exact h.but.enters_free hf _
      · exact claims_enterFollow _ _ h hf

theorem claims_completeStep (l : LaneId) (h : ClaimsAgree s) : ClaimsAgree (completeStep l s) := by
  obtain ⟨hclosed, hfree⟩ := claims_closeStep (l := l) h
  unfold completeStep
  split
  · split
    · dsimp only
      split
      · exact claims_endSequence _ hclosed hfree
      · next step remaining _ =>
        have e : holding ((closeStep l s).updLane l (fun ln =>
            { ln with current := some step, repeatRemaining := remaining })) = holding (closeStep l s) :=
          holding_updLane _
        exact claims_continueSequence _ (hclosed.of_holding e) (hfree.of_holding e)
    · exact h
  · exact h

/-! ### Lane requests (Chapters 2 and 4) -/

theorem claims_loadStep (r : StepRef) (h : ClaimsAgreeBut l s) (hf : LaneFree l s) : ClaimsAgree (loadStep l r s) := by
  have e : holding (s.updLane l (fun ln => { ln with
      base := some r, current := some r, repeatRemaining := ln.repeatSetting, seqEnd := false
      haltCause := .none })) = holding s := holding_updLane _
  exact (h.of_holding e).enters_free (hf.of_holding e) _

theorem claims_loadLane (step : Half) (l : LaneId) (h : ClaimsAgree s) : ClaimsAgree (loadLane step l s).1 := by
  obtain ⟨hgone, hfree⟩ := claims_letGo (h.but (l := l))
  unfold loadLane
  cases stepOf step with
  | none => exact h
  | some n =>
    cases hs : (s.lane l).state <;> dsimp only
    case idle | ready =>
      split
      · exact h
      · rw [if_neg (by simp)]
        exact claims_loadStep _ h.but (h.free (by simp [hs]))
    case held =>
      split
      · exact h
      · rw [if_pos rfl]
        exact claims_loadStep _ hgone hfree
    all_goals exact h

theorem claims_clearLane (l : LaneId) (h : ClaimsAgree s) : ClaimsAgree (clearLane l s).1 := by
  obtain ⟨hgone, hfree⟩ := claims_letGo (h.but (l := l))
  have e : holding ((letGo l s).updLane l (fun ln => { ln with
      holdLatch := false, haltCause := .none, followDue := false, decrements := 0 })) = holding (letGo l s) :=
    holding_updLane _
  have hclear := (hgone.of_holding e).enters_free (hfree.of_holding e) .idle
  unfold clearLane
  split
  · exact h.of_holding (holding_recordHalt _)
  · exact hclear
  · exact hclear
  · exact hclear
  all_goals exact h

theorem claims_goLane (p : Console) (l : LaneId) (h : ClaimsAgree s) : ClaimsAgree (goLane p l s).1 := by
  unfold goLane
  split
  · split
    · next hgo => exact claims_enterPlanning _ h hgo
    · exact h
  · split
    · next hgo => exact claims_enterPlanning _ h hgo
    · exact h
  · next hs =>
    split
    · next hgo => exact claims_enterPlanning _ h hgo
    · exact claims_endFollow h hs
  all_goals exact h

theorem claims_directLane (p : Console) (rs tn : Half) (ms : List RawMove) (l : LaneId) (h : ClaimsAgree s) :
    ClaimsAgree (directLane p rs tn ms l s).1 := by
  have hgo (st : Step) (c : Answer) (f : Refused → Answer) (hs : (s.lane l).state = .idle ∨ (s.lane l).state = .ready) :
      ClaimsAgree (match goChecks l (some p) (writeDirect l st s) with
        | .ok s2 => (enterPlanning l false s2, c)
        | .error r => (writeDirect l st s, f r)).1 := by
    have hfree : LaneFree l s := h.free (hs.imp id .inl)
    have hwritten : ClaimsAgree (writeDirect l st s) := claims_loadStep (l := l) _ h.but hfree
    split
    · next hgo => exact claims_enterPlanning false hwritten hgo
    · exact hwritten
  unfold directLane
  split
  · exact h
  · split
    · next hs => exact hgo _ _ _ (.inl hs)
    · next hs => exact hgo _ _ _ (.inr hs)
    all_goals exact h

theorem claims_masterCleared : ClaimsAgree (masterCleared s) := by
  refine ⟨fun l a => ?_, fun l => ?_⟩
  · rw [lane_masterCleared]
    simp [masterCleared, State.axis, clearedLane, Lane.reset]
  · rw [lane_masterCleared]
    simp [clearedLane, Lane.reset]

/-- A request whose own change keeps the law keeps it, taken or answered by its port (R172). -/
theorem claims_serve {p : Console} {tag kind : Byte} {self : Instr} {act : State → State × Answer} (h : ClaimsAgree s)
    (hact : ClaimsAgree (act s).1) : ClaimsAgree (serve p tag kind self act s) := by
  obtain e | e | ⟨code, e⟩ := serve_cases p tag kind self act s
  · rw [e]
    exact hact.of_holding (holding_finish _ _ _ _)
  · rw [e]
    exact h.of_holding rfl
  · rw [e]
    exact h.of_holding rfl

/-! ### Every command -/

/-- Every command keeps claims and owners agreed. -/
theorem exec_keeps_claims {i : Instr} (h : ClaimsAgree s) (e : exec i s = .next t) : ClaimsAgree t := by
  have same {t : State} (e : holding t = holding s) : ClaimsAgree t := h.of_holding e
  cases i with
  | pinReset => cases e; exact claimsAgree_reset.of_holding (holding_same rfl rfl)
  | imageLoadCompletion found => cases e; exact same (holding_completeLoad found)
  | saveCompletion bad => cases e; exact same (holding_completeSave bad)
  | periodStart => cases e; exact same holding_beginPeriod
  | motionGeneratorWork l => cases e; exact same (holding_generatorWork l s)
  | stopTrajectoryStep a => cases e; exact claims_stopStep a h
  | arrival => cases e; exact same holding_takeArrival
  | stepCompletion l => cases e; exact claims_completeStep l h
  | followExpiry l => cases e; exact claims_followCount l h
  | linkedDecrement l => cases e; exact claims_linkedCount l h
  | releaseTimeout l => cases e; exact claims_expireRelease l h
  | releaseEnd l => cases e; exact claims_endRelease l h
  | trackingMark => cases e; exact same holding_takeMark
  | planCompletion => cases e; exact same holding_completePlan
  | planWithdrawal => cases e; exact same (holding_ite rfl rfl)
  | planResult l => cases e; exact claims_takeResult l h
  | faultRequest a cause => cases e; exact same (holding_takeFaultRequest cause)
  | faultNotice l a => cases e; exact claims_takeNotice l a h
  | interlockTrip l n => cases e; exact claims_takeDelivery _ (claims_interlockTrip l n) h
  | emergency l => cases e; exact claims_takeDelivery _ (claims_emergencyLane l) h
  | enableHalt l c => cases e; exact claims_takeDelivery _ (claims_enableLoss l c) h
  | holdAssertion l n => cases e; exact claims_takeDelivery _ (claims_holdAssertion l n) h
  | rawLevelChange => cases e; exact same (holding_same rfl rfl)
  | qualifiedChange line => cases e; exact same (holding_qualify line)
  | driveRound => cases e; exact same holding_driveRound
  | statusFrame latency bytes => cases e; exact same (holding_statusFrame latency bytes)
  | replyWindowExpiry => cases e; exact same holding_windowExpiry
  | stationOnlineNotice => cases e; exact same holding_takeOnlineNotice
  | stationLostNotice => cases e; exact same holding_takeLostNotice
  | supervisorReplyCheck => cases e; exact same holding_takeReplyCheck
  | consoleFrame p => cases e; exact same (holding_judgeFrame p)
  | frameTimeout => cases e; exact same (holding_same rfl rfl)
  | replySent => cases e; exact same (holding_same rfl rfl)
  | eventPosted => cases e; exact same holding_offerOldest
  | byteReceived => cases e; exact same (holding_same rfl rfl)
  | take p => cases e; exact claims_serve h (onLane_keeps h (fun l => same (holding_takeLane p l s)))
  | yield => cases e; exact claims_serve h (onOwnLane_keeps h (fun l => same (holding_yieldLane l s)))
  | load => cases e; exact claims_serve h (onOwnLane_keeps h (fun l => claims_loadLane _ l h))
  | go p => cases e; exact claims_serve h (onOwnLane_keeps h (fun l => claims_goLane p l h))
  | halt => cases e; exact claims_serve h (onLane_keeps h (fun l => claims_haltLane l _ h))
  | clearLane => cases e; exact claims_serve h (onOwnLane_keeps h (fun l => claims_clearLane l h))
  | setRate =>
    cases e; exact claims_serve h (onOwnLane_keeps h (fun _ => same (holding_updLane _)))
  | setRepeat =>
    cases e; exact claims_serve h (onOwnLane_keeps h (fun _ => same (holding_updLane _)))
  | setHoldLine => cases e; exact claims_serve h (onOwnLane_keeps h (fun l => same (holding_setHoldLine _ l s)))
  | direct p => cases e; exact claims_serve h (onOwnLane_keeps h (fun l => claims_directLane p _ _ _ l h))
  | getLane => cases e; exact claims_serve h (onLane_keeps h (fun _ => h))
  | putStep => cases e; exact claims_serve h (same (holding_putStep _ _ s))
  | dropStep => cases e; exact claims_serve h (same (holding_dropStep _ s))
  | getStep => cases e; exact claims_serve h (by rw [getStep_state]; exact h)
  | putAxis =>
    cases e
    exact claims_serve h (putAxis_keeps h (fun _ _ => same holding_removeAxis)
      (fun _ _ _ _ _ _ => same (holding_configureAxis _)))
  | putAxisRemove => cases e; exact claims_serve h (putAxisRemove_keeps h (fun _ _ => same holding_removeAxis))
  | getAxis => cases e; exact claims_serve h (by rw [getAxis_state]; exact h)
  | lockSet => cases e; exact claims_serve h (same (holding_lockSet _ _ s))
  | clearFault => cases e; exact claims_serve h (clearFault_keeps h (fun _ _ => same holding_returnToRest))
  | putPair => cases e; exact claims_serve h (same (holding_putPair _ _ _ _ s))
  | dropPair => cases e; exact claims_serve h (same (holding_dropPair _ s))
  | getStation => cases e; exact claims_serve h (same (holding_getStation _ _ s))
  | poll => cases e; exact claims_serve h (same (holding_same rfl rfl))
  | fetch => cases e; exact claims_serve h (same (holding_same rfl rfl))
  | setFilter p => cases e; exact claims_serve h (same (holding_setFilter p _ s))
  | eStop => cases e; exact claims_serve h (same (holding_setLatch _))
  | clearEStop p => cases e; exact claims_serve h (same (holding_clearEStop p s))
  | masterClear => cases e; exact claims_serve h (masterClear_keeps h (fun _ => claims_masterCleared))
  | saveImage p => cases e; exact claims_serve h (same (holding_saveImage p s))

/-- Settles O57: owners and holdings change by a claim, a release and a lane's change of state alone, and each of these keeps
the law or is followed by the one that restores it. -/
theorem every_step_keeps_claims_and_owners_agreed : Obligations.every_step_keeps_claims_and_owners_agreed :=
  fun _ _ => step_leads (·.of_holding (holding_same rfl rfl)) id exec_keeps_claims

end Sys2Proof.Machine

namespace Sys2Proof.Machine

variable {s t u : State} {l k : LaneId} {a b : AxisId}

/-! ### Lane requests (R24 to R31) -/

section
variable {p : Console} {lane : Byte} {act : LaneId → State → State × Answer}

theorem onLane_some (hl : laneOf lane = some l) : onLane lane act s = act l s := by
  simp only [onLane, hl]

theorem onLane_none (hl : laneOf lane = none) : onLane lane act s = (s, .refuse .badArg) := by
  simp only [onLane, hl]

theorem onOwnLane_own (hl : laneOf lane = some l) (hc : (s.lane l).controller = some p) :
    onOwnLane p lane act s = act l s := by
  simp only [onOwnLane, hl, if_pos hc]

theorem onOwnLane_none (hl : laneOf lane = none) : onOwnLane p lane act s = (s, .refuse .badArg) := by
  simp only [onOwnLane, hl]

theorem onOwnLane_other (hl : laneOf lane = some l) (hc : (s.lane l).controller ≠ some p) :
    onOwnLane p lane act s = (s, .refuse .notController) := by
  simp only [onOwnLane, hl, if_neg hc]

end

/-- Settles O36: the lane number is judged before the controller, and either refusal leaves its reply alone. -/
theorem only_the_controller_commands_a_lane : Obligations.only_the_controller_commands_a_lane := by
  intro p tag lane step rate rs tn count source moves s i kind
  refine ⟨fun hi ht hl => ?_, fun l hi ht hl hc => ?_⟩
  · simp only [List.mem_cons, Prod.mk.injEq, List.not_mem_nil, or_false] at hi
    rcases hi with ⟨rfl, rfl⟩ | ⟨rfl, rfl⟩ | ⟨rfl, rfl⟩ | ⟨rfl, rfl⟩ | ⟨rfl, rfl⟩ | ⟨rfl, rfl⟩ | ⟨rfl, rfl⟩ |
      ⟨rfl, rfl⟩ | ⟨rfl, rfl⟩ | ⟨rfl, rfl⟩ | ⟨rfl, rfl⟩
    all_goals refine serve_refused ht ?_
    any_goals rw [onOwnLane_none hl]
    all_goals rw [onLane_none hl]
  · simp only [List.mem_cons, Prod.mk.injEq, List.not_mem_nil, or_false] at hi
    rcases hi with ⟨rfl, rfl⟩ | ⟨rfl, rfl⟩ | ⟨rfl, rfl⟩ | ⟨rfl, rfl⟩ | ⟨rfl, rfl⟩ | ⟨rfl, rfl⟩ | ⟨rfl, rfl⟩ |
      ⟨rfl, rfl⟩
    all_goals exact serve_refused ht (onOwnLane_other hl hc)

/-- The lines SH0 to SH3 stand behind the bytes 1 to 4 (Table 12-2). -/
theorem holdSourceOf_line {v : Byte} {n : HoldLine} (h : v.toNat = n.val + 1) : holdSourceOf v = some (some n) := by
  obtain ⟨m, hm⟩ := n
  have hv : v.toNat = m + 1 := h
  simp [holdSourceOf, hv, hm]

theorem holdSourceOf_none {v : Byte} (h : 4 < v.toNat) : holdSourceOf v = none := by
  rw [holdSourceOf, if_neg (by omega), dif_neg (by omega)]

/-- Settles O31: each setting is one update of the lane's record. -/
theorem rate_repeat_and_hold_line_are_set : Obligations.rate_repeat_and_hold_line_are_set := by
  refine ⟨fun p tag lane l rate s hl hc ht => serve_ok ht (onOwnLane_own hl hc) rfl,
    fun p tag lane l v s hl hc => ⟨fun ht => serve_ok ht (onOwnLane_own hl hc) rfl,
      fun ht => ⟨fun hv => ?_, fun n hn => ?_, fun hv => ?_⟩⟩⟩
  · refine serve_ok ht ((onOwnLane_own hl hc).trans ?_) rfl
    subst hv
    rfl
  · refine serve_ok ht ((onOwnLane_own hl hc).trans ?_) rfl
    simp only [setHoldLine, holdSourceOf_line hn]
  · refine serve_refused ht ((onOwnLane_own hl hc).trans ?_)
    simp only [setHoldLine, holdSourceOf_none hv]

/-- A request taken whose change posts events: they are offered, and its reply is left (R173). -/
theorem serve_posting {p : Console} {tag kind : Byte} {self : Instr} {act : State → State × Answer} {data : List Byte}
    {es : List EventBody} (h : Taken s p self) (hact : act s = (emitAll es u, .ok data))
    (hu : u.messages.posted = s.messages.posted) :
    Host.Outcome.next (φ := Fault) (ρ := Refusal) (serve p tag kind self act s) =
      .next (answered p u es ⟨kind, tag, .ok, data⟩) := by
  rw [serve_of_taken h, finish_eq hact hu]
  rfl

/-! ### TAKE and YIELD (R25 to R27) -/

/-- A change of controller as one update and its event (R27). -/
theorem setController_eq {before after : Option Console} (h : (s.lane l).controller = before) :
    setController l after s =
      emitAll [.controller l before after] (s.updLane l (fun ln => { ln with controller := after })) := by
  rw [setController, h]
  rfl

theorem displaceable_iff {st : LaneState} :
    st.displaceable = true ↔ st ∈ [LaneState.idle, .ready, .held, .stopping] := by
  cases st <;> simp [LaneState.displaceable]

theorem takeLane_vacant {p : Console} (h : (s.lane l).controller = none) :
    takeLane p l s = (setController l (some p) s, .ok []) := by
  simp only [takeLane, h]

theorem takeLane_own {p : Console} (h : (s.lane l).controller = some p) : takeLane p l s = (s, .ok []) := by
  simp only [takeLane, h, if_true]

theorem takeLane_displaces {p c : Console} (h : (s.lane l).controller = some c) (hc : c ≠ p) (he : s.enabled c = false)
    (hs : (s.lane l).state ∈ [LaneState.idle, .ready, .held, .stopping]) :
    takeLane p l s = (setController l (some p) s, .ok []) := by
  simp only [takeLane, h, if_neg hc, he, displaceable_iff.2 hs, and_self, if_true]

theorem takeLane_owned {p c : Console} (h : (s.lane l).controller = some c) (hc : c ≠ p)
    (hs : s.enabled c = true ∨ (s.lane l).state ∈ [LaneState.planning, .releasing, .running, .follow]) :
    takeLane p l s = (s, .refuse .owned) := by
  have hkept : ¬ (s.enabled c = false ∧ (s.lane l).state.displaceable = true) := by
    rintro ⟨he, hd⟩
    rw [displaceable_iff] at hd
    rcases hs with hs | hs
    · rw [he] at hs; cases hs
    · simp only [List.mem_cons, List.not_mem_nil, or_false] at hs hd
      rcases hs with hs | hs | hs | hs <;> simp [hs] at hd
  simp only [takeLane, h, if_neg hc, if_neg hkept]

theorem yieldLane_gives (hs : (s.lane l).state ∈ [LaneState.idle, .ready, .held]) :
    yieldLane l s = (setController l none s, .ok []) := by
  simp only [List.mem_cons, List.not_mem_nil, or_false] at hs
  rcases hs with hs | hs | hs <;> simp only [yieldLane, hs]

theorem yieldLane_busy (hs : (s.lane l).state ∈ [LaneState.planning, .releasing, .running, .stopping, .follow]) :
    yieldLane l s = (s, .refuse .busy) := by
  simp only [List.mem_cons, List.not_mem_nil, or_false] at hs
  rcases hs with hs | hs | hs | hs | hs <;> simp only [yieldLane, hs]

/-- Settles O29, by the lane's controller and state. -/
theorem control_of_a_lane_is_taken_and_yielded : Obligations.control_of_a_lane_is_taken_and_yielded := by
  intro p tag lane l s hl
  refine ⟨fun ht => ⟨fun hc => ?_, fun hc => ?_, fun c hc hne => ⟨fun ⟨he, hs⟩ => ?_, fun hs => ?_⟩⟩,
    fun ht hc => ⟨fun hs => ?_, fun hs => ?_⟩⟩
  · refine serve_posting ht ?_ rfl
    rw [onLane_some hl, takeLane_vacant hc, setController_eq hc]
  · exact serve_ok ht ((onLane_some hl).trans (takeLane_own hc)) rfl
  · refine serve_posting ht ?_ rfl
    rw [onLane_some hl, takeLane_displaces hc hne he hs, setController_eq hc]
  · exact serve_refused ht ((onLane_some hl).trans (takeLane_owned hc hne hs))
  · refine serve_posting ht ?_ rfl
    rw [onOwnLane_own hl hc, yieldLane_gives hs, setController_eq hc]
  · exact serve_refused ht ((onOwnLane_own hl hc).trans (yieldLane_busy hs))

end Sys2Proof.Machine

namespace Sys2Proof.Machine

variable {s t u : State} {l k : LaneId} {a b : AxisId}

/-! ### Deliveries (R131, R142, R143, R148) -/

/-- An update of a lane is its effect on the record the lane holds. -/
theorem updLane_congr {f g : Lane → Lane} (h : f (s.lane l) = g (s.lane l)) : s.updLane l f = s.updLane l g := by
  have htable : s.lanes.modify l f = s.lanes.modify l g := Table.ext_get (fun j => by
    rw [Table.get_modify, Table.get_modify]
    exact ite_congr rfl (fun _ => h) (fun _ => rfl))
  simp only [State.updLane, htable]

/-- A delivery that is in the inbox is taken off it and acted on. -/
theorem takeDelivery_takes {m : LaneMessage} (act : State → State) (h : m ∈ (s.lane l).inbox) :
    takeDelivery l m act s = act (s.updLane l (fun ln => { ln with inbox := ln.inbox.erase m })) :=
  if_pos h

section
variable {before after : List LaneMessage} (hin : (s.lane l).inbox = before ++ .fault a :: after)
  (hfirst : ∀ b : AxisId, LaneMessage.fault b ∉ before)
include hin hfirst

/-- The notice a lane takes next is the oldest in its inbox (R143). -/
theorem nextNotice_oldest : nextNotice (s.lane l) = some a := by
  have hnone : before.findSome? (fun m => match m with | .fault a => some a | _ => none) = none := by
    rw [List.findSome?_eq_none_iff]
    intro m hm
    cases m with
    | fault b => exact absurd hm (hfirst b)
    | _ => rfl
  have happend := List.findSome?_append (xs := before) (ys := .fault a :: after)
    (f := fun m : LaneMessage => match m with | .fault a => some a | _ => none)
  rw [nextNotice, hin]
  refine happend.trans ?_
  rw [hnone]
  rfl

theorem takeNotice_oldest :
    takeNotice l a s = faultNotice l a (s.updLane l (fun ln => { ln with inbox := before ++ after })) := by
  have herase : (s.lane l).inbox.erase (.fault a) = before ++ after := by
    rw [hin, List.erase_append_right _ (hfirst a), List.erase_cons_head]
  rw [takeNotice, if_pos (nextNotice_oldest hin hfirst), takeDelivery_takes _ (by simp [hin])]
  exact congrArg (faultNotice l a) (updLane_congr (by rw [herase]))

theorem takeNotice_waits (hb : b ≠ a) : takeNotice l b s = s := by
  rw [takeNotice, nextNotice_oldest hin hfirst, if_neg (by simpa using hb.symm)]

end

theorem faultNotice_releasing (ho : (s.axis a).owner = some l) (hs : (s.lane l).state = .releasing) :
    faultNotice l a s = haltLane l (.fault a) s := by
  simp only [faultNotice, if_pos ho, haltLane, hs]

theorem faultNotice_running (ho : (s.axis a).owner = some l) (hs : (s.lane l).state = .running) :
    faultNotice l a s = controlledStop l (.fault a) s := by
  simp only [faultNotice, if_pos ho, hs]

theorem faultNotice_stopping (ho : (s.axis a).owner = some l) (hs : (s.lane l).state = .stopping) :
    faultNotice l a s = endTest l s := by
  simp only [faultNotice, if_pos ho, hs]

/-- A notice for an axis of another lane, or in a state outside the release and the motion, changes nothing (R142). -/
theorem faultNotice_idle (h : (s.axis a).owner ≠ some l ∨
    (s.lane l).state ∈ [LaneState.idle, .ready, .planning, .held, .follow]) : faultNotice l a s = s := by
  by_cases ho : (s.axis a).owner = some l
  · have hs := h.resolve_left (not_not.2 ho)
    simp only [List.mem_cons, List.not_mem_nil, or_false] at hs
    rcases hs with hs | hs | hs | hs | hs <;> simp only [faultNotice, hs, ite_self]
  · exact if_neg ho

theorem mem_pairOwners {pr : ClashPair} :
    l ∈ pairOwners s pr ↔ (s.axis pr.upper).owner = some l ∨ (s.axis pr.lower).owner = some l := by
  simp [pairOwners]

theorem interlockTrip_running {n : PairId} {pr : ClashPair} (hn : s.pairs.get n = some pr)
    (ho : (s.axis pr.upper).owner = some l ∨ (s.axis pr.lower).owner = some l) (hs : (s.lane l).state = .running) :
    interlockTrip l n s = controlledStop l (.interlock n) s := by
  simp only [interlockTrip, hn]
  exact if_pos ⟨hs, mem_pairOwners.2 ho⟩

theorem interlockTrip_idle {n : PairId} (h : (s.lane l).state ≠ .running ∨ ∀ pr, s.pairs.get n = some pr →
    (s.axis pr.upper).owner ≠ some l ∧ (s.axis pr.lower).owner ≠ some l) : interlockTrip l n s = s := by
  unfold interlockTrip
  split
  · rfl
  · next pr hpr =>
    refine if_neg ?_
    rw [mem_pairOwners]
    rintro ⟨hs, ho⟩
    obtain ⟨hupper, hlower⟩ := h.resolve_left (not_not.2 hs) pr hpr
    exact ho.elim hupper hlower

/-! ### A halt outside RUNNING (R67, R69, R79) -/

/-- A change of state posts its event behind a change that posts nothing. -/
theorem changeState_posts (st : LaneState) :
    ∃ u es, changeState l st s = emitAll es u ∧ u.messages = s.messages := by
  by_cases h : (s.lane l).state = st
  · exact ⟨s, [], by rw [changeState_same s l h, emitAll_nil], rfl⟩
  · exact ⟨_, _, changeState_eq s l h, rfl⟩

theorem standDown_posts : ∃ u es, standDown l s = emitAll es u ∧ u.messages = s.messages := by
  by_cases hr : (s.lane l).resume = true
  · obtain ⟨u, es, heq, hmsg⟩ := changeState_posts (l := l) (s := clearHold l s) .held
    exact ⟨u, es, (if_pos hr).trans heq, hmsg.trans rfl⟩
  · obtain ⟨u, es, heq, hmsg⟩ := changeState_posts (l := l)
      (s := release l ((clearHold l s).updLane l (fun ln => { ln with plan := none }))) .ready
    exact ⟨u, es, (if_neg hr).trans heq, hmsg.trans rfl⟩

theorem releaseHalt_posts (cause : HaltCause) :
    ∃ u es, releaseHalt l cause s = emitAll es u ∧ u.messages = s.messages := by
  obtain ⟨u, es, heq, hmsg⟩ := standDown_posts (l := l) (s := dropContext l (restMembers l (recordHalt l cause s)))
  exact ⟨u, es, heq, hmsg.trans rfl⟩

/-- What HaltedElsewhere says determines the state, but for a RELEASING lane without a context. -/
theorem HaltedElsewhere.messages {cause : HaltCause} {es : List EventBody} (h : HaltedElsewhere l cause s u es)
    (hs : (s.lane l).state ≠ .running) (hc : (s.lane l).state = .releasing → s.context l ≠ none) :
    u.messages = s.messages := by
  obtain ⟨hstill, hfollow, hfresh, hresume, hrelease⟩ := h
  cases hst : (s.lane l).state
  case running => exact absurd hst hs
  case idle | ready | stopping | held => rw [(hstill (by simp [hst])).1]
  case follow => rw [(hfollow hst).2]; rfl
  case planning =>
    cases hr : (s.lane l).resume
    · rw [(hfresh hst hr).2]
    · rw [(hresume hst hr).2]
  case releasing =>
    obtain ⟨c, hc⟩ := Option.ne_none_iff_exists'.1 (hc hst)
    obtain ⟨hfresh, hresume⟩ := hrelease c _ hc rfl
    cases hr : (s.lane l).resume
    · rw [(hfresh hst hr).2]
    · rw [(hresume hst hr).2]

/-- A halt of a lane that is not RUNNING, its events apart from its change. -/
theorem haltLane_posts (cause : HaltCause) (h : (s.lane l).state ≠ .running) :
    ∃ u es, haltLane l cause s = emitAll es u ∧ u.messages = s.messages ∧ HaltedElsewhere l cause s u es := by
  by_cases hc : (s.lane l).state = .releasing → s.context l ≠ none
  · obtain ⟨u, es, heq, helse⟩ := haltLane_elsewhere s l cause h
    exact ⟨u, es, heq, helse.messages h hc, helse⟩
  · obtain ⟨hs, hn⟩ := Classical.not_imp.1 hc
    obtain ⟨u, es, heq, hmsg⟩ := releaseHalt_posts (s := s) (l := l) cause
    refine ⟨u, es, by rw [haltLane, hs]; exact heq, hmsg, ?_⟩
    simp [HaltedElsewhere, hs, not_not.1 hn]

/-- HALT taken: the halt's own events and the lane state it leaves in the reply (R32). -/
theorem exec_halt {p : Console} {tag lane : Byte} {es : List EventBody} (hl : laneOf lane = some l)
    (ht : Taken s p (.halt p tag lane)) (heq : haltLane l .halt s = emitAll es u) (hmsg : u.messages = s.messages) :
    exec (.halt p tag lane) s = .next (answered p u es ⟨0x14, tag, .ok, [(u.lane l).state.code]⟩) := by
  refine serve_posting ht ?_ (congrArg Messages.posted hmsg)
  rw [onLane_some hl, haltRequest, heq]
  rfl

theorem exec_enableHalt {c : Console} (h : LaneMessage.enableLoss c ∈ (s.lane l).inbox) :
    exec (.enableHalt l c) s =
      .next (enableLoss l c (s.updLane l (fun ln => { ln with inbox := ln.inbox.erase (.enableLoss c) }))) :=
  congrArg Host.Outcome.next (takeDelivery_takes _ h)

theorem enableLoss_own {c : Console} (h : (s.lane l).controller = some c) : enableLoss l c s = haltLane l .enable s :=
  if_pos h

theorem enableLoss_other {c : Console} (h : (s.lane l).controller ≠ some c) : enableLoss l c s = s := if_neg h

theorem exec_interlockTrip {n : PairId} (h : LaneMessage.trip n ∈ (s.lane l).inbox) :
    exec (.interlockTrip l n) s =
      .next (interlockTrip l n (s.updLane l (fun ln => { ln with inbox := ln.inbox.erase (.trip n) }))) :=
  congrArg Host.Outcome.next (takeDelivery_takes _ h)

/-- Settles O26: each delivery is taken off the inbox, and the lane then acts by its state. -/
theorem a_halt_outside_running_acts_by_the_lane_state :
    Obligations.a_halt_outside_running_acts_by_the_lane_state := by
  intro l s
  refine ⟨fun p tag lane hl ht hs => ?_, fun c hc hm hs => ?_, fun c hc hm => ?_, fun a before after hin hfirst => ?_,
    fun n hm h => ?_⟩
  · obtain ⟨u, es, heq, hmsg, helse⟩ := haltLane_posts (s := s) (l := l) .halt hs
    exact ⟨u, es, exec_halt hl ht heq hmsg, helse⟩
  · rw [exec_enableHalt hm, enableLoss_own (by rw [lane_updLane_same]; exact hc)]
    obtain ⟨u, es, heq, helse⟩ := haltLane_elsewhere
      (s.updLane l (fun ln => { ln with inbox := ln.inbox.erase (.enableLoss c) })) l .enable
      (by rw [lane_updLane_same]; exact hs)
    exact ⟨u, es, congrArg Host.Outcome.next heq, helse⟩
  · rw [exec_enableHalt hm, enableLoss_other (by rw [lane_updLane_same]; exact hc)]
  · set w := s.updLane l (fun ln => { ln with inbox := before ++ after }) with hw
    have hexec : exec (.faultNotice l a) s = .next (faultNotice l a w) :=
      congrArg Host.Outcome.next (takeNotice_oldest hin hfirst)
    have hstate : (w.lane l).state = (s.lane l).state := by rw [hw, lane_updLane_same]
    refine ⟨w, rfl, fun ho hs => ?_, fun ho hs => ?_, fun h => ?_, fun b hb => ?_⟩
    · have hs' := hstate.trans hs
      obtain ⟨u, es, heq, helse⟩ := haltLane_elsewhere w l (.fault a) (by rw [hs']; simp)
      exact ⟨u, es, by rw [hexec, faultNotice_releasing (s := w) ho hs', heq], helse⟩
    · have hs' := hstate.trans hs
      exact ⟨endTest l w, by rw [hexec, faultNotice_stopping (s := w) ho hs'], endTest_does w l hs'⟩
    · rw [hexec, faultNotice_idle (s := w) (by rw [hstate]; exact h)]
    · exact congrArg Host.Outcome.next (takeNotice_waits hin hfirst hb)
  · rw [exec_interlockTrip hm, interlockTrip_idle (by rw [lane_updLane_same]; exact h)]

end Sys2Proof.Machine

namespace Sys2Proof.Machine

variable {s t u : State} {l k : LaneId} {a b : AxisId}

/-! ### The members in a controlled stop (R70, R116) -/

/-- A member has a velocity to stop from: it has departed and moved in the last period. -/
def HasVelocity (l : LaneId) (s : State) (a : AxisId) : Prop := departed s l a = true ∧ lastMovement (s.axis a) ≠ 0

/-- The stop trajectory a moving member is put on (R116). -/
def stopTrajectory (l : LaneId) (s : State) (a : AxisId) : StopRecord where
  velocity := lastMovement (s.axis a)
  direction := plannedDirection s l a
  rampFloor := match (s.axis a).config with | some c => c.rampFloor | none => 0
  index := 0
  posted := false
  due := workDue s l

/-- The stop trajectories of the axes in `xs` have been set up: a MOVING one is STOPPING on its record when it has a
velocity and REST otherwise, and nothing else has changed. -/
structure MembersHalted (l : LaneId) (xs : List AxisId) (s u : State) : Prop where
  stopping : ∀ b ∈ xs, (s.axis b).state = .moving → HasVelocity l s b →
    u.axis b = { s.axis b with state := .stopping, arriving := false } ∧ u.stop b = some (stopTrajectory l s b)
  rest : ∀ b ∈ xs, (s.axis b).state = .moving → ¬ HasVelocity l s b →
    u.axis b = { s.axis b with state := .rest, arriving := false } ∧ u.stop b = s.stop b
  other : ∀ b, (b ∉ xs ∨ (s.axis b).state ≠ .moving) → u.axis b = s.axis b ∧ u.stop b = s.stop b
  frame : { u with axes := s.axes, stops := s.stops } = s

theorem haltMember_halts (l : LaneId) (s : State) (a : AxisId) : MembersHalted l [a] s (haltMember l s a) := by
  by_cases hm : (s.axis a).state = .moving
  · by_cases hv : HasVelocity l s a
    · have heq : haltMember l s a = (setAxisState a .stopping s).setStop a (some (stopTrajectory l s a)) :=
        (if_pos hm).trans (if_pos hv)
      rw [heq]
      refine ⟨?_, ?_, fun b hb => ?_, rfl⟩
      · simp [axis_setAxisState]
      · simp [hv]
      · have hne : a ≠ b := by rintro rfl; simp [hm] at hb
        simp [axis_setAxisState, stop_setStop, hne]
    · have heq : haltMember l s a = setAxisState a .rest s := (if_pos hm).trans (if_neg hv)
      rw [heq]
      refine ⟨?_, ?_, fun b hb => ?_, rfl⟩
      · simp [hv]
      · simp [axis_setAxisState]
      · have hne : a ≠ b := by rintro rfl; simp [hm] at hb
        simp [axis_setAxisState, hne]
  · rw [show haltMember l s a = s from if_neg hm]
    exact ⟨by simp [hm], by simp [hm], fun _ _ => ⟨rfl, rfl⟩, rfl⟩

theorem MembersHalted.lanes {xs : List AxisId} (h : MembersHalted l xs s u) : u.lanes = s.lanes := by
  have hkept := congrArg State.lanes h.frame
  exact hkept

theorem MembersHalted.contexts {xs : List AxisId} (h : MembersHalted l xs s u) : u.contexts = s.contexts := by
  have hkept := congrArg State.contexts h.frame
  exact hkept

theorem MembersHalted.messages {xs : List AxisId} (h : MembersHalted l xs s u) : u.messages = s.messages := by
  have hkept := congrArg State.messages h.frame
  exact hkept

/-- What a member's stop trajectory is made from: its axis, and the lane's plan and context. -/
theorem velocity_congr (hl : u.lanes = s.lanes) (hc : u.contexts = s.contexts) (ha : u.axis a = s.axis a) :
    (HasVelocity l u a ↔ HasVelocity l s a) ∧ stopTrajectory l u a = stopTrajectory l s a := by
  constructor
  · simp only [HasVelocity, departed, State.context, hc, ha]
  · simp only [stopTrajectory, plannedDirection, workDue, State.context, State.lane, hl, hc, ha]

/-- One member after another: a member met again is no longer MOVING. -/
theorem MembersHalted.cons {xs : List AxisId} (h : MembersHalted l [a] s t) (hrest : MembersHalted l xs t u) :
    MembersHalted l (a :: xs) s u := by
  have hstill {b : AxisId} (hm : (t.axis b).state ≠ .moving) : u.axis b = t.axis b ∧ u.stop b = t.stop b :=
    hrest.other b (.inr hm)
  have hbefore {b : AxisId} (hb : b ≠ a) : t.axis b = s.axis b ∧ t.stop b = s.stop b :=
    h.other b (.inl (by simpa using hb))
  refine ⟨fun b hb hm hv => ?_, fun b hb hm hv => ?_, fun b hb => ?_, ?_⟩
  · by_cases hba : b = a
    · obtain ⟨hax, hst⟩ := h.stopping b (by simp [hba]) hm hv
      obtain ⟨hax', hst'⟩ := hstill (b := b) (by rw [hax]; simp)
      exact ⟨hax'.trans hax, hst'.trans hst⟩
    · obtain ⟨hax, hst⟩ := hbefore hba
      obtain ⟨hvel, htraj⟩ := velocity_congr (l := l) h.lanes h.contexts hax
      rw [← hax, ← htraj]
      exact hrest.stopping b (List.mem_of_ne_of_mem hba hb) (by rw [hax]; exact hm) (hvel.2 hv)
  · by_cases hba : b = a
    · obtain ⟨hax, hst⟩ := h.rest b (by simp [hba]) hm hv
      obtain ⟨hax', hst'⟩ := hstill (b := b) (by rw [hax]; simp)
      exact ⟨hax'.trans hax, hst'.trans hst⟩
    · obtain ⟨hax, hst⟩ := hbefore hba
      obtain ⟨hvel, -⟩ := velocity_congr (l := l) h.lanes h.contexts hax
      rw [← hax, ← hst]
      exact hrest.rest b (List.mem_of_ne_of_mem hba hb) (by rw [hax]; exact hm) (fun hv' => hv (hvel.1 hv'))
  · obtain ⟨hax, hst⟩ := h.other b (hb.imp_left (fun hn hmem => hn (by simp_all)))
    obtain ⟨hax', hst'⟩ := hrest.other b (hb.imp (fun hn hmem => hn (List.mem_cons_of_mem _ hmem))
      (by rw [hax]; exact id))
    exact ⟨hax'.trans hax, hst'.trans hst⟩
  · calc { u with axes := s.axes, stops := s.stops }
        = { ({ u with axes := t.axes, stops := t.stops } : State) with axes := s.axes, stops := s.stops } := rfl
      _ = { t with axes := s.axes, stops := s.stops } := by rw [hrest.frame]
      _ = s := h.frame

theorem haltMembers (xs : List AxisId) : MembersHalted l xs s (xs.foldl (haltMember l) s) := by
  induction xs generalizing s with
  | nil => exact ⟨by simp, by simp, fun _ _ => ⟨rfl, rfl⟩, rfl⟩
  | cons x rest ih => exact (haltMember_halts l s x).cons ih

theorem axis_settleArrivals : (settleArrivals l s).axis a =
    if a ∈ (s.lane l).claimSet ∧ (s.axis a).state = .moving ∧ (s.axis a).arriving = true then
      { s.axis a with state := .rest, arriving := false } else s.axis a := Table.get_mapIdx _ _ _

theorem settleArrivals_arriving (hb : a ∈ (s.lane l).claimSet) (hm : (s.axis a).state = .moving)
    (ha : (s.axis a).arriving = true) :
    (settleArrivals l s).axis a = { s.axis a with state := .rest, arriving := false } :=
  axis_settleArrivals.trans (if_pos ⟨hb, hm, ha⟩)

theorem settleArrivals_other (h : a ∉ (s.lane l).claimSet ∨ (s.axis a).state ≠ .moving ∨ (s.axis a).arriving = false) :
    (settleArrivals l s).axis a = s.axis a := by
  refine axis_settleArrivals.trans (if_neg ?_)
  rintro ⟨hb, hm, ha⟩
  rcases h with h | h | h
  · exact h hb
  · exact h hm
  · simp [ha] at h

/-! ### The controlled stop of a RUNNING lane (R56, R70, R71) -/

/-- The state in which a controlled stop enters STOPPING: arrivals settled, the cause recorded, the stop trajectories
set up. -/
def haltedMembers (l : LaneId) (cause : HaltCause) (s : State) : State :=
  (s.lane l).claimSet.foldl (haltMember l) (recordHalt l cause (settleArrivals l s))

theorem controlledStop_def (cause : HaltCause) :
    controlledStop l cause s = endTest l (changeState l .stopping (haltedMembers l cause s)) := rfl

section
variable (l : LaneId) (cause : HaltCause) (s : State)

/-- Behind the arrivals and the cause, a member's velocity and stop trajectory are what they were. -/
theorem velocity_recorded (hax : (settleArrivals l s).axis a = s.axis a) :
    (HasVelocity l (recordHalt l cause (settleArrivals l s)) a ↔ HasVelocity l s a) ∧
      stopTrajectory l (recordHalt l cause (settleArrivals l s)) a = stopTrajectory l s a := by
  have hax' : (recordHalt l cause (settleArrivals l s)).axis a = s.axis a := hax
  have hplan : ((recordHalt l cause (settleArrivals l s)).lane l).plan = (s.lane l).plan := by
    rw [recordHalt, lane_updLane_same]; rfl
  have hctx : (recordHalt l cause (settleArrivals l s)).context l = s.context l := rfl
  constructor
  · simp only [HasVelocity, departed, hctx, hax']
  · simp only [stopTrajectory, plannedDirection, workDue, hctx, hplan, hax']

theorem haltedMembers_halted : MembersHalted l (s.lane l).claimSet (recordHalt l cause (settleArrivals l s))
    (haltedMembers l cause s) := haltMembers _

theorem haltedMembers_lanes :
    (haltedMembers l cause s).lanes = s.lanes.modify l (fun ln => { ln with haltCause := cause }) :=
  (haltedMembers_halted l cause s).lanes

theorem haltedMembers_contexts : (haltedMembers l cause s).contexts = s.contexts :=
  (haltedMembers_halted l cause s).contexts

theorem haltedMembers_messages : (haltedMembers l cause s).messages = s.messages :=
  (haltedMembers_halted l cause s).messages

theorem haltedMembers_frame :
    { haltedMembers l cause s with lanes := s.lanes, axes := s.axes, stops := s.stops } = s := by
  have hkept := congrArg (fun t : State => { t with lanes := s.lanes, axes := s.axes })
    (haltedMembers_halted l cause s).frame
  exact hkept

end

section
variable {cause : HaltCause}

/-- A moving member with a velocity and no arrival request outstanding is STOPPING. -/
theorem haltedMembers_stopping (hb : b ∈ (s.lane l).claimSet) (hm : (s.axis b).state = .moving)
    (ha : (s.axis b).arriving = false) (hv : HasVelocity l s b) :
    (haltedMembers l cause s).axis b = { s.axis b with state := .stopping } ∧
      (haltedMembers l cause s).stop b = some (stopTrajectory l s b) := by
  have hax : (settleArrivals l s).axis b = s.axis b := settleArrivals_other (.inr (.inr ha))
  have hax' : (recordHalt l cause (settleArrivals l s)).axis b = s.axis b := hax
  obtain ⟨hvel, htraj⟩ := velocity_recorded l cause s hax
  obtain ⟨hstop, hrec⟩ := (haltedMembers_halted l cause s).stopping b hb (by rw [hax']; exact hm) (hvel.2 hv)
  refine ⟨hstop.trans ?_, hrec.trans (congrArg some htraj)⟩
  rw [hax', ← ha]

/-- Every other moving member is REST (log entry 15). -/
theorem haltedMembers_rest (hb : b ∈ (s.lane l).claimSet) (hm : (s.axis b).state = .moving)
    (h : ¬ ((s.axis b).arriving = false ∧ HasVelocity l s b)) :
    (haltedMembers l cause s).axis b = { s.axis b with state := .rest, arriving := false } ∧
      (haltedMembers l cause s).stop b = s.stop b := by
  by_cases ha : (s.axis b).arriving = true
  · have hax : (recordHalt l cause (settleArrivals l s)).axis b = { s.axis b with state := .rest, arriving := false } :=
      settleArrivals_arriving hb hm ha
    obtain ⟨hsame, hstop⟩ := (haltedMembers_halted l cause s).other b (.inr (by rw [hax]; simp))
    exact ⟨hsame.trans hax, hstop⟩
  · have ha := Bool.not_eq_true _ ▸ ha
    have hax : (settleArrivals l s).axis b = s.axis b := settleArrivals_other (.inr (.inr ha))
    have hax' : (recordHalt l cause (settleArrivals l s)).axis b = s.axis b := hax
    obtain ⟨hvel, -⟩ := velocity_recorded l cause s hax
    obtain ⟨hrest, hstop⟩ := (haltedMembers_halted l cause s).rest b hb (by rw [hax']; exact hm)
      (fun hv => h ⟨ha, hvel.1 hv⟩)
    exact ⟨hrest.trans (by rw [hax']), hstop⟩

theorem haltedMembers_other (h : b ∉ (s.lane l).claimSet ∨ (s.axis b).state ≠ .moving) :
    (haltedMembers l cause s).axis b = s.axis b ∧ (haltedMembers l cause s).stop b = s.stop b := by
  have hax : (recordHalt l cause (settleArrivals l s)).axis b = s.axis b := settleArrivals_other (h.imp_right .inl)
  obtain ⟨hsame, hstop⟩ := (haltedMembers_halted l cause s).other b (h.imp_right (by rw [hax]; exact id))
  exact ⟨hsame.trans hax, hstop⟩

/-- The lane after a controlled stop, by whether a member is left in motion. -/
theorem ControlledStop.of_lane (hu : { haltedMembers l cause s with lanes := u.lanes, contexts := u.contexts } = u)
    (hquiet : membersAtRest (haltedMembers l cause s) l = true → u.context l = none ∧
      ∀ c, s.context l = some c → u.lane l = { s.lane l with
        state := .held, haltCause := cause, holdLatch := false
        plan := (s.lane l).plan.map (fun p => { p with frozen := c.profileTime }) })
    (hmoving : ¬ membersAtRest (haltedMembers l cause s) l = true →
      u.context l = s.context l ∧ u.lane l = { s.lane l with state := .stopping, haltCause := cause })
    (hothers : ∀ k : LaneId, k ≠ l → u.lane k = s.lane k ∧ u.context k = s.context k) :
    ControlledStop l cause s u := by
  have haxis : u.axis = (haltedMembers l cause s).axis := by rw [← hu]; rfl
  have hstop : u.stop = (haltedMembers l cause s).stop := by rw [← hu]; rfl
  have hclaim : ((haltedMembers l cause s).lane l).claimSet = (s.lane l).claimSet := by
    rw [State.lane, haltedMembers_lanes, Table.get_modify_same]; rfl
  rw [membersAtRest_iff, hclaim] at hquiet hmoving
  rw [← haxis] at hquiet hmoving
  refine ⟨fun a hb hm => ⟨fun ⟨ha, hv⟩ => ?_, fun hn => ?_⟩, fun a h => ?_, hquiet, hmoving, hothers, ?_⟩
  · rw [haxis, hstop]
    exact haltedMembers_stopping hb hm ha hv
  · rw [haxis, hstop]
    exact haltedMembers_rest hb hm hn
  · rw [haxis, hstop]
    exact haltedMembers_other h
  · have hkept := congrArg (fun t : State => { t with contexts := s.contexts, messages := s.messages })
      (haltedMembers_frame l cause s)
    rw [← hu]
    exact hkept

end

/-- The HELD lane a controlled stop leaves behind STOPPING when no member is left in motion. -/
def heldAtOnce (l : LaneId) (time : Nat) (s : State) : State :=
  { s with
    contexts := s.contexts.set l none
    lanes := s.lanes.modify l (fun ln => { ln with
      state := .held, holdLatch := false, plan := ln.plan.map (fun p => { p with frozen := time }) }) }

theorem haltLane_running {cause : HaltCause} (h : (s.lane l).state = .running) :
    haltLane l cause s = controlledStop l cause s := by
  simp only [haltLane, h]

theorem endTest_moving (h : ¬ membersAtRest s l = true) : endTest l s = s := if_neg (fun hr => h hr.2)

theorem endTest_held {c : MotionContext} (hs : (s.lane l).state = .stopping) (hc : s.context l = some c)
    (hr : membersAtRest s l = true) :
    endTest l s = emitAll [.laneState l .stopping .held (s.lane l).haltCause] (heldAtOnce l c.profileTime s) :=
  (endTest_does s l hs).1 c hc ((membersAtRest_iff s l).1 hr)

/-- The lane STOPPING with its halted members. -/
def stoppingLane (l : LaneId) (cause : HaltCause) (s : State) : State :=
  (haltedMembers l cause s).updLane l (fun ln => { ln with state := .stopping })

section
variable (l : LaneId) (cause : HaltCause) (s : State)

theorem stoppingLane_lanes : (stoppingLane l cause s).lanes =
    s.lanes.modify l (fun ln => { ln with state := .stopping, haltCause := cause }) := by
  rw [stoppingLane, State.updLane_lanes, haltedMembers_lanes, Table.modify_modify]

theorem stoppingLane_lane :
    (stoppingLane l cause s).lane l = { s.lane l with state := .stopping, haltCause := cause } := by
  rw [State.lane, stoppingLane_lanes, Table.get_modify_same]
  rfl

theorem stoppingLane_other (hk : k ≠ l) : (stoppingLane l cause s).lane k = s.lane k := by
  rw [State.lane, stoppingLane_lanes, Table.get_modify, if_neg hk.symm]
  rfl

theorem stoppingLane_contexts : (stoppingLane l cause s).contexts = s.contexts := haltedMembers_contexts l cause s

theorem stoppingLane_context (k : LaneId) : (stoppingLane l cause s).context k = s.context k :=
  congrArg (Table.get · k) (stoppingLane_contexts l cause s)

theorem stoppingLane_messages : (stoppingLane l cause s).messages = s.messages := haltedMembers_messages l cause s

theorem stoppingLane_atRest : membersAtRest (stoppingLane l cause s) l = membersAtRest (haltedMembers l cause s) l := by
  rw [membersAtRest, stoppingLane, lane_updLane_same]
  rfl

theorem heldAtOnce_lane (time : Nat) : (heldAtOnce l time s).lane l = { s.lane l with
    state := .held, holdLatch := false
    plan := (s.lane l).plan.map (fun p => { p with frozen := time }) } := Table.get_modify_same _ _ _

theorem heldAtOnce_context (time : Nat) : (heldAtOnce l time s).context l = none := Table.get_set_same _ _ _

theorem heldAtOnce_other (time : Nat) (hk : k ≠ l) :
    (heldAtOnce l time s).lane k = s.lane k ∧ (heldAtOnce l time s).context k = s.context k :=
  ⟨(Table.get_modify _ _ _ _).trans (if_neg hk.symm), (Table.get_set _ _ _ _).trans (if_neg hk.symm)⟩

end

/-- A controlled stop enters STOPPING with its event and makes the end test. -/
theorem controlledStop_enters (cause : HaltCause) (hs : (s.lane l).state = .running) :
    controlledStop l cause s =
      endTest l (emitAll [.laneState l .running .stopping cause] (stoppingLane l cause s)) := by
  have hlane : (haltedMembers l cause s).lane l = { s.lane l with haltCause := cause } := by
    rw [State.lane, haltedMembers_lanes, Table.get_modify_same]
    rfl
  rw [controlledStop_def, changeState_eq _ l (by rw [hlane]; simp [hs]), hlane, hs]
  rfl

/-- A member is left in motion: the lane is STOPPING. -/
theorem controlledStop_moving {cause : HaltCause} (hs : (s.lane l).state = .running)
    (hr : ¬ membersAtRest (haltedMembers l cause s) l = true) :
    controlledStop l cause s = emitAll [.laneState l .running .stopping cause] (stoppingLane l cause s) := by
  rw [← stoppingLane_atRest] at hr
  exact (controlledStop_enters cause hs).trans (endTest_moving hr)

/-- No member is left in motion: the lane is HELD. -/
theorem controlledStop_held {cause : HaltCause} {c : MotionContext} (hs : (s.lane l).state = .running)
    (hc : s.context l = some c) (hr : membersAtRest (haltedMembers l cause s) l = true) :
    controlledStop l cause s = emitAll [.laneState l .running .stopping cause, .laneState l .stopping .held cause]
      (heldAtOnce l c.profileTime (stoppingLane l cause s)) := by
  have hlane := stoppingLane_lane l cause s
  rw [← stoppingLane_atRest] at hr
  have hend := endTest_held (s := emitAll [.laneState l .running .stopping cause] (stoppingLane l cause s)) (l := l)
    (congrArg Lane.state hlane) ((stoppingLane_context l cause s l).trans hc) hr
  have hcause : ((emitAll [.laneState l .running .stopping cause] (stoppingLane l cause s)).lane l).haltCause = cause :=
    congrArg Lane.haltCause hlane
  rw [controlledStop_enters cause hs, hend, hcause]
  exact emitAll_emitAll (s := heldAtOnce l c.profileTime (stoppingLane l cause s))
    [.laneState l .running .stopping cause] [.laneState l .stopping .held cause]

/-- A controlled stop of a RUNNING lane, its events apart from its change. -/
theorem controlledStop_does (cause : HaltCause) (hs : (s.lane l).state = .running)
    (hc : (s.context l).isSome = true) :
    ∃ u, controlledStop l cause s = emitAll (stopEvents l cause u) u ∧ ControlledStop l cause s u ∧
      u.messages = s.messages := by
  obtain ⟨c, hc⟩ := Option.isSome_iff_exists.1 hc
  have hlane := stoppingLane_lane l cause s
  have hmessages := stoppingLane_messages l cause s
  by_cases hr : membersAtRest (haltedMembers l cause s) l = true
  · have hheld := heldAtOnce_lane l (stoppingLane l cause s) c.profileTime
    rw [hlane] at hheld
    refine ⟨heldAtOnce l c.profileTime (stoppingLane l cause s), (controlledStop_held hs hc hr).trans ?_,
      .of_lane ?_ (fun _ => ⟨?_, fun d hd => ?_⟩) (fun hn => absurd hr hn) (fun k hk => ?_), hmessages⟩
    · rw [stopEvents, hheld]
      rfl
    · rfl
    · exact heldAtOnce_context l _ _
    · obtain rfl : c = d := Option.some.inj (hc.symm.trans hd)
      exact hheld
    · obtain ⟨hl, hctx⟩ := heldAtOnce_other l (stoppingLane l cause s) c.profileTime hk
      exact ⟨hl.trans (stoppingLane_other l cause s hk), hctx.trans (stoppingLane_context l cause s k)⟩
  · refine ⟨stoppingLane l cause s, (controlledStop_moving hs hr).trans ?_, .of_lane rfl (fun hn => absurd hn hr)
      (fun _ => ⟨stoppingLane_context l cause s l, hlane⟩)
      (fun k hk => ⟨stoppingLane_other l cause s hk, stoppingLane_context l cause s k⟩), hmessages⟩
    rw [stopEvents, hlane]
    rfl

/-- The stop of `w` posts its events behind the queue of a state that differs from `w` in its lanes only. -/
theorem controlledStop_posts {w : State} (cause : HaltCause) (hs : (w.lane l).state = .running)
    (hc : (w.context l).isSome = true) (hmsg : w.messages = s.messages) (hper : w.period = s.period) :
    ControlledStop l cause w (controlledStop l cause w) ∧
      (controlledStop l cause w).messages = (emitAll (stopEvents l cause (controlledStop l cause w)) s).messages := by
  obtain ⟨u, heq, hstop, hkept⟩ := controlledStop_does cause hs hc
  have hperiod : u.period = w.period := by
    obtain ⟨-, -, -, -, -, hframe⟩ := hstop
    have hsame := congrArg State.period hframe
    exact hsame
  rw [heq]
  exact ⟨hstop, emitAll_messages_congr (hkept.trans hmsg) (hperiod.trans hper)⟩

/-- Settles O25: each delivery is taken off the inbox and, like HALT, is a controlled stop of the lane. -/
theorem a_running_lane_takes_a_controlled_stop : Obligations.a_running_lane_takes_a_controlled_stop := by
  intro l s hs hc
  have hrun (f : Lane → Lane) (hf : (f (s.lane l)).state = (s.lane l).state) :
      ((s.updLane l f).lane l).state = .running := by rw [lane_updLane_same, hf, hs]
  have hstop (f : Lane → Lane) (cause : HaltCause) (hf : (f (s.lane l)).state = (s.lane l).state) :=
    controlledStop_posts (s := s) (w := s.updLane l f) cause (hrun f hf) hc rfl rfl
  refine ⟨fun c hcon hm => ?_, fun a before after ho hin hfirst => ?_, fun n pr hn ho hm => ?_,
    fun p tag lane hl ht => ?_⟩
  · refine ⟨_, ?_, hstop (fun ln => { ln with inbox := ln.inbox.erase (.enableLoss c) }) .enable rfl⟩
    rw [exec_enableHalt hm, enableLoss_own (by rw [lane_updLane_same]; exact hcon),
      haltLane_running (hrun (fun ln => { ln with inbox := ln.inbox.erase (.enableLoss c) }) rfl)]
  · refine ⟨_, congrArg Host.Outcome.next ?_, hstop (fun ln => { ln with inbox := before ++ after }) (.fault a) rfl⟩
    exact (takeNotice_oldest hin hfirst).trans
      (faultNotice_running ho (hrun (fun ln => { ln with inbox := before ++ after }) rfl))
  · refine ⟨_, (exec_interlockTrip hm).trans (congrArg Host.Outcome.next ?_),
      hstop (fun ln => { ln with inbox := ln.inbox.erase (.trip n) }) (.interlock n) rfl⟩
    exact interlockTrip_running hn ho (hrun (fun ln => { ln with inbox := ln.inbox.erase (.trip n) }) rfl)
  · obtain ⟨u, heq, hdone, hmsg⟩ := controlledStop_does .halt hs hc
    exact ⟨u, _, exec_halt hl ht ((haltLane_running hs).trans heq) hmsg, hdone, hmsg, rfl⟩

end Sys2Proof.Machine

namespace Sys2Proof.Machine

variable {s t u : State} {l k : LaneId} {a b : AxisId}

/-! ### What the Planner waits for (R82 to R86) -/

/-- The Planner has something of the lane in hand: its place in the queue, or a plan in progress that is to be delivered to
it. -/
def Planner.serves (pl : Planner) (l : LaneId) : Prop :=
  l ∈ pl.queue ∨ ∃ j, pl.inProgress = some j ∧ j.withdrawn = false ∧ j.lane = l

/-- Nothing is in hand twice. -/
def Planner.Orderly (pl : Planner) : Prop :=
  pl.queue.Nodup ∧ ∀ j, pl.inProgress = some j → j.withdrawn = false → j.lane ∉ pl.queue

/-- A lane that the Planner has something of in hand waits in PLANNING without a result, or its withdrawal is still to be
taken. -/
def LaneAwaits (l : LaneId) (s : State) : Prop :=
  ((s.lane l).state = .planning ∨ l ∈ s.planner.withdrawals) ∧
    ((s.lane l).state = .planning → (s.lane l).planResult = none)

theorem plannerSound_iff :
    PlannerSound s ↔ s.planner.Orderly ∧ ∀ l, s.planner.serves l → LaneAwaits l s := by
  constructor
  · rintro ⟨hnodup, hqueue, hresult, hjob⟩
    refine ⟨⟨hnodup, fun j e hw => (hjob j e hw).2.1⟩, ?_⟩
    rintro l (hl | ⟨j, e, hw, rfl⟩)
    · exact ⟨hqueue l hl, hresult l hl⟩
    · exact ⟨(hjob j e hw).1, (hjob j e hw).2.2⟩
  · rintro ⟨⟨hnodup, hout⟩, hawaits⟩
    refine ⟨hnodup, fun l hl => (hawaits l (.inl hl)).1, fun l hl => (hawaits l (.inl hl)).2, fun j e hw => ?_⟩
    obtain ⟨hwait, hres⟩ := hawaits j.lane (.inr ⟨j, e, hw, rfl⟩)
    exact ⟨hwait, hout j e hw, hres⟩

/-- The Planner has nothing of the lane in hand but what is withdrawn. -/
def LaneReleased (l : LaneId) (s : State) : Prop := s.planner.serves l → l ∈ s.planner.withdrawals

/-- A lane outside PLANNING, or with a result to take, is waited for by nothing. -/
theorem PlannerSound.released (h : PlannerSound s)
    (hl : (s.lane l).state ≠ .planning ∨ (s.lane l).planResult ≠ none) : LaneReleased l s := fun hs => by
  obtain ⟨hwait, hres⟩ := (plannerSound_iff.1 h).2 l hs
  exact hwait.resolve_left (fun e => hl.elim (· e) (· (hres e)))

/-- Every other lane waits as it did: in its state, for the result it has or has not. -/
def OthersWait (l : LaneId) (s t : State) : Prop :=
  ∀ k, k ≠ l → (t.lane k).state = (s.lane k).state ∧ (t.lane k).planResult = (s.lane k).planResult

theorem CalmBut.othersWait (h : CalmBut l s t) : OthersWait l s t := fun k hk =>
  ⟨(h.others k hk).state, (h.others k hk).result⟩

/-- A lane changes its own affairs, and may send withdrawals: the other lanes are awaited as before. -/
theorem PlannerSound.turns (h : PlannerSound s) (hc : OthersWait l s t) {ws : List LaneId}
    (hp : t.planner = { s.planner with withdrawals := s.planner.withdrawals ++ ws })
    (hl : t.planner.serves l → LaneAwaits l t) : PlannerSound t := by
  obtain ⟨hord, hawaits⟩ := plannerSound_iff.1 h
  refine plannerSound_iff.2 ⟨by rw [hp]; exact hord, fun k hk => ?_⟩
  by_cases e : k = l
  · subst e; exact hl hk
  · have hk' : s.planner.serves k := by rw [hp] at hk; exact hk
    obtain ⟨hwait, hres⟩ := hawaits k hk'
    obtain ⟨hstate, hresult⟩ := hc k e
    refine ⟨?_, fun e => hresult.trans (hres (hstate ▸ e))⟩
    rw [hstate, hp]
    exact hwait.imp id (List.mem_append_left _)

/-- A lane that the Planner waits for no longer comes to rest outside PLANNING. -/
theorem PlannerSound.rests (h : PlannerSound s) (hr : LaneReleased l s) (hc : OthersWait l s t) (hp : t.planner = s.planner)
    (hs : (t.lane l).state ≠ .planning) : PlannerSound t :=
  h.turns hc (ws := []) (by rw [hp, List.append_nil]) (fun hl => by
    rw [hp] at hl
    exact ⟨.inr (hp ▸ hr hl), fun e => absurd e hs⟩)

/-- Every lane is kept, and the Planner with what it has in hand. -/
theorem PlannerSound.kept (h : PlannerSound s) (hp : t.planner = s.planner)
    (hl : ∀ l, (t.lane l).state = (s.lane l).state ∧ (t.lane l).planResult = (s.lane l).planResult) : PlannerSound t := by
  obtain ⟨hord, hawaits⟩ := plannerSound_iff.1 h
  refine plannerSound_iff.2 ⟨hp ▸ hord, fun l hs => ?_⟩
  obtain ⟨hstate, hresult⟩ := hl l
  rw [LaneAwaits, hstate, hresult, hp]
  exact hawaits l (hp ▸ hs)

/-- A withdrawal taken leaves nothing of its lane in hand, and of the others what there was (R86). -/
theorem withdraw_serves (pl : Planner) : (withdraw l pl).serves k ↔ pl.serves k ∧ k ≠ l := by
  constructor
  · rintro (hk | ⟨j, e, hw, rfl⟩)
    · simp only [withdraw, List.mem_filter, decide_eq_true_eq] at hk
      exact ⟨.inl hk.1, hk.2⟩
    · obtain ⟨e', hne⟩ := withdraw_job e hw
      exact ⟨.inr ⟨j, e', hw, rfl⟩, hne⟩
  · rintro ⟨hk | ⟨j, e, hw, rfl⟩, hne⟩
    · exact .inl (by simpa [withdraw] using ⟨hk, hne⟩)
    · exact .inr ⟨j, by simp [withdraw, e, hne], hw, rfl⟩

theorem Planner.Orderly.withdraw {pl : Planner} (h : pl.Orderly) (l : LaneId) : (withdraw l pl).Orderly := by
  obtain ⟨hnodup, hout⟩ := h
  refine ⟨hnodup.filter _, fun j e hw hj => ?_⟩
  exact hout j (withdraw_job e hw).1 hw (List.mem_filter.1 hj).1

/-- PLAN_WITHDRAWAL: the lane is waited for by nothing more. -/
theorem PlannerSound.withdraw (h : PlannerSound s) (l : LaneId) :
    PlannerSound { s with planner := withdraw l s.planner } := by
  obtain ⟨hord, hawaits⟩ := plannerSound_iff.1 h
  refine plannerSound_iff.2 ⟨hord.withdraw l, fun k hk => ?_⟩
  obtain ⟨hk, hne⟩ := (withdraw_serves _).1 hk
  obtain ⟨hwait, hres⟩ := hawaits k hk
  exact ⟨hwait.imp id (fun hw => by simpa [Machine.withdraw] using ⟨hw, hne⟩), hres⟩

/-- The head of the queue becomes the plan in progress (R84). -/
theorem PlannerSound.startService (h : PlannerSound s) : PlannerSound (startService s) := by
  unfold Machine.startService
  split
  · next l rest hidle hqueue =>
    obtain ⟨⟨hnodup, -⟩, hawaits⟩ := plannerSound_iff.1 h
    rw [hqueue, List.nodup_cons] at hnodup
    refine plannerSound_iff.2 ⟨⟨hnodup.2, fun j e _ => ?_⟩, fun k hk => hawaits k (.inl ?_)⟩
    · obtain rfl : snapshot s l = j := Option.some.inj e
      exact hnodup.1
    · rw [hqueue]
      obtain hk | ⟨j, e, -, hj⟩ := hk
      · exact List.mem_cons_of_mem _ hk
      · obtain rfl : snapshot s l = j := Option.some.inj e
        exact hj ▸ List.mem_cons_self
  · exact h

/-- A lane that the Planner waits for no longer joins the queue from PLANNING, without a result (R83). -/
theorem PlannerSound.joinQueue (h : PlannerSound s) (hr : LaneReleased l s) (hc : OthersWait l s t)
    (hp : t.planner = s.planner) (hs : (t.lane l).state = .planning) (hn : (t.lane l).planResult = none) :
    PlannerSound (joinQueue l t) := by
  obtain ⟨hord, hawaits⟩ := plannerSound_iff.1 h
  set pl := if l ∈ t.planner.withdrawals then Machine.withdraw l t.planner else t.planner with hpl
  have hpl_ord : pl.Orderly := by
    rw [hpl, hp]
    split
    · exact hord.withdraw l
    · exact hord
  have hpl_serves : ∀ k, pl.serves k → k ≠ l ∧ s.planner.serves k := by
    intro k hk
    rw [hpl, hp] at hk
    split at hk
    · exact ((withdraw_serves _).1 hk).symm
    · next hout => exact ⟨fun e => hout (hr (e ▸ hk) : l ∈ _), hk⟩
  have hpl_keeps : ∀ k, k ≠ l → k ∈ s.planner.withdrawals → k ∈ pl.withdrawals := by
    intro k hk hw
    rw [hpl, hp]
    split
    · simpa [Machine.withdraw] using ⟨hw, hk⟩
    · exact hw
  have hlast : l ∉ pl.queue := fun hl => (hpl_serves l (.inl hl)).1 rfl
  refine PlannerSound.startService (plannerSound_iff.2 ⟨⟨?_, fun j e hw hj => ?_⟩, fun k hk => ?_⟩)
  · exact List.nodup_append.2 ⟨hpl_ord.1, List.nodup_singleton l, by
      rintro x hx y hy rfl
      exact hlast (List.mem_singleton.1 hy ▸ hx)⟩
  · rcases List.mem_append.1 hj with hj | hj
    · exact hpl_ord.2 j e hw hj
    · exact (hpl_serves j.lane (.inr ⟨j, e, hw, rfl⟩)).1 (List.mem_singleton.1 hj)
  · by_cases e : k = l
    · subst e; exact ⟨.inl hs, fun _ => hn⟩
    · have hk : pl.serves k := hk.imp (fun hk => (List.mem_append.1 hk).resolve_right (by simpa using e)) id
      obtain ⟨hwait, hres⟩ := hawaits k (hpl_serves k hk).2
      obtain ⟨hstate, hresult⟩ := hc k e
      exact ⟨hwait.imp hstate.trans (hpl_keeps k e), fun e => hresult.trans (hres (hstate ▸ e))⟩

/-- PLAN_COMPLETION: the lane with the result is in nobody's hand, and the next plan begins (R85). -/
theorem PlannerSound.completePlan (h : PlannerSound s) : PlannerSound (completePlan s) := by
  obtain ⟨⟨hnodup, hout⟩, hawaits⟩ := plannerSound_iff.1 h
  have hidle : PlannerSound { s with planner := { s.planner with inProgress := none } } :=
    plannerSound_iff.2 ⟨⟨hnodup, fun _ e => nomatch e⟩, fun k hk => hawaits k (.inl (hk.resolve_right (by simp)))⟩
  unfold Machine.completePlan
  split
  · exact h
  · next j hj =>
    refine PlannerSound.startService ?_
    split
    · exact hidle
    · next hw =>
      unfold deliverResult
      split
      · refine hidle.turns (calmBut_updLane _).othersWait (ws := []) (by simp) (fun hs => ?_)
        exact absurd (hs.resolve_right (by simp)) (hout j hj (by simpa using hw))
      · exact hidle

end Sys2Proof.Machine

namespace Sys2Proof.Machine

variable {s t u : State} {l k : LaneId} {a b : AxisId}

/-! ### A GO, its checks and its change (R61 to R63, R83, R84) -/

/-- The checks of a GO pass: the claim of the current step's axes is granted. -/
theorem goChecks_passed {c : Console} (h : firstRefusal s l c = none) : ∃ st, currentStep s l = some st ∧
    goChecks l (some c) s = .ok (grant l (st.moves.map (·.axis)) s) := by
  unfold firstRefusal at h
  split_ifs at h with hlatch henabled
  cases hst : currentStep s l with
  | none => simp [hst] at h
  | some st =>
    simp only [hst] at h
    refine ⟨st, rfl, ?_⟩
    simp only [goChecks, hlatch, henabled, hst, claim, h]
    rfl

/-- The first check of a GO that fails is its refusal. -/
theorem goChecks_refused {c : Console} {r : Refused} (h : firstRefusal s l c = some r) :
    goChecks l (some c) s = .error r := by
  unfold firstRefusal at h
  unfold goChecks
  split_ifs at h ⊢
  · exact congrArg Except.error (Option.some.inj h)
  · exact congrArg Except.error (Option.some.inj h)
  · cases hst : currentStep s l with
    | none =>
      simp only [hst] at h
      exact congrArg Except.error (Option.some.inj h)
    | some st =>
      simp only [hst] at h
      simp only [claim, h]

/-- A lane with its claim granted, in PLANNING, before it joins the queue. -/
def claimed (l : LaneId) (resume : Bool) (as : List AxisId) (s : State) : State :=
  (grant l as s).updLane l (fun ln => { ln with
    state := .planning, resume := resume, haltCause := .none, plan := none, planResult := none, followDue := false
    decrements := 0 })

theorem claimed_lane (resume : Bool) (as : List AxisId) : (claimed l resume as s).lane l = { s.lane l with
    state := .planning, resume := resume, haltCause := .none, plan := none, planResult := none, claimSet := as
    followDue := false, decrements := 0 } := by
  rw [claimed, lane_updLane_same]
  simp [grant, State.lane]

theorem calmBut_claimed {as : List AxisId} (resume : Bool) (h : ∀ b ∈ as, claimTest s l b = none) :
    CalmBut l s (claimed l resume as s) :=
  (calmBut_grant h).trans (calmBut_updLane _)

/-- The Planner alone changes when a lane joins its queue. -/
theorem joinQueue_frame (l : LaneId) (s : State) : { joinQueue l s with planner := s.planner } = s := by
  obtain ⟨pl, hjoin, -⟩ := joinQueue_cases l s
  obtain e | ⟨k, queue, e⟩ := startService_cases { s with planner := pl } <;> rw [hjoin, e]

theorem joinQueue_lane (l k : LaneId) (s : State) : (joinQueue l s).lane k = s.lane k := by
  have h := congrArg State.lanes (joinQueue_frame l s)
  exact congrArg (Table.get · k) h

theorem joinQueue_messages (l : LaneId) (s : State) : (joinQueue l s).messages = s.messages := by
  have h := congrArg State.messages (joinQueue_frame l s)
  exact h

theorem joinQueue_axis (l : LaneId) (a : AxisId) (s : State) : (joinQueue l s).axis a = s.axis a := by
  have h := congrArg State.axes (joinQueue_frame l s)
  exact congrArg (Table.get · a) h

/-- Events posted are nothing to the Planner. -/
theorem startService_emitAll (es : List EventBody) (s : State) :
    startService (emitAll es s) = emitAll es (startService s) := by
  have hplanner : (emitAll es s).planner = s.planner := rfl
  unfold startService
  rw [hplanner]
  cases s.planner.inProgress with
  | some => rfl
  | none => cases s.planner.queue <;> rfl

theorem joinQueue_emitAll (es : List EventBody) (s : State) :
    joinQueue l (emitAll es s) = emitAll es (joinQueue l s) :=
  startService_emitAll es { s with planner :=
    { (if l ∈ s.planner.withdrawals then withdraw l s.planner else s.planner) with
      queue := (if l ∈ s.planner.withdrawals then withdraw l s.planner else s.planner).queue ++ [l] } }

/-- Behind a plan in progress the lane stands at the tail of the queue (R83). -/
theorem joinQueue_behind {j : PlanJob} (hj : s.planner.inProgress = some j) (hw : l ∉ s.planner.withdrawals) :
    (joinQueue l s).planner = { s.planner with queue := s.planner.queue ++ [l] } := by
  simp only [joinQueue, if_neg hw, startService, hj]

/-- An idle Planner serves the lane at once (R84). -/
theorem joinQueue_idle (hj : s.planner.inProgress = none) (hq : s.planner.queue = []) :
    (joinQueue l s).planner.queue = [] ∧
      ∃ j, (joinQueue l s).planner.inProgress = some j ∧ SnapshotTaken (joinQueue l s) l j := by
  have hout : (if l ∈ s.planner.withdrawals then withdraw l s.planner else s.planner).inProgress = none ∧
      (if l ∈ s.planner.withdrawals then withdraw l s.planner else s.planner).queue = [] := by
    split <;> simp [withdraw, hj, hq]
  have hserved : (joinQueue l s).planner.queue = [] ∧
      (joinQueue l s).planner.inProgress = some (snapshot (joinQueue l s) l) := by
    unfold joinQueue startService
    simp only [hout.1, hout.2, List.nil_append, true_and]
    rfl
  exact ⟨hserved.1, _, hserved.2, snapshot_taken _ l⟩

/-- A GO that passes its checks, as one change and its LANE_STATE event (R56, R61). -/
theorem enterPlanning_eq (resume : Bool) (as : List AxisId) (h : (s.lane l).state ≠ .planning) :
    enterPlanning l resume (grant l as s) =
      (joinQueue l (claimed l resume as s)).emit (.laneState l (s.lane l).state .planning .none) := by
  have hgrant : ((grant l as s).lane l).state = (s.lane l).state := by simp [grant, State.lane]
  rw [enterPlanning, changeState_eq]
  · rw [joinQueue_emitAll, emit_eq_emitAll, lane_updLane_same]
    simp only [State.updLane, Table.modify_modify, claimed]
    rw [← hgrant]
  · rw [lane_updLane_same]
    exact hgrant ▸ h

/-- What GO leaves is what the statements call the entry to PLANNING. -/
theorem entersPlanning_claimed {st : Step} (resume : Bool) (hst : currentStep s l = some st) :
    EntersPlanning l resume s (joinQueue l (claimed l resume (st.moves.map (·.axis)) s)) := by
  set as := st.moves.map (·.axis) with has
  refine ⟨st, hst, (joinQueue_lane l l _).trans (claimed_lane resume as), fun a => ?_, fun j hj hw => ?_,
    fun hj hq => joinQueue_idle hj hq, fun k hk => ?_, ?_⟩
  · rw [joinQueue_axis]
    exact grant_axis s l a as
  · exact joinQueue_behind (s := claimed l resume as s) hj hw
  · rw [joinQueue_lane, claimed, lane_updLane, if_neg hk.symm]
    exact Table.get_modify_of_ne _ _ hk.symm
  · exact congrArg (fun u : State => { u with lanes := s.lanes, axes := s.axes, planner := s.planner })
      (joinQueue_frame l (claimed l resume as s))

/-- The Planner's law through a GO that passes its checks. -/
theorem PlannerSound.enterPlanning {c : Option Console} (h : PlannerSound s) (hs : (s.lane l).state ≠ .planning)
    (resume : Bool) (hgo : goChecks l c s = .ok t) : PlannerSound (enterPlanning l resume t) := by
  obtain ⟨st, -, rfl, hclaim⟩ := goChecks_ok hgo
  rw [enterPlanning_eq resume _ hs]
  refine PlannerSound.kept (h.joinQueue (h.released (.inl hs)) (calmBut_claimed resume hclaim).othersWait rfl ?_ ?_) rfl
    (fun _ => ⟨rfl, rfl⟩)
  · rw [claimed_lane]
  · rw [claimed_lane]

end Sys2Proof.Machine

namespace Sys2Proof.Machine

variable {s t u : State} {l k : LaneId} {a b : AxisId}

/-! ### The bounds and what moves them (R42, R82, R83, R174, R178) -/

/-- The bounds of one port record (Table 10-1). -/
structure Port.Bounded (pt : Port) : Prop where
  events : pt.events.length ≤ Config.eventQueueSize
  transmit : pt.transmit.length ≤ 4
  owed : pt.inProgress ≠ none → pt.transmit.length ≤ 3
  filter : pt.filter ≤ 3
  errors : pt.frameErrors ≤ Config.counterMax

theorem portsBounded_iff : PortsBounded s ↔ ∀ p, (s.port p).Bounded :=
  ⟨fun h p => by
    obtain ⟨hevents, htransmit, howed, hfilter, herrors⟩ := h p
    exact ⟨hevents, htransmit, howed, hfilter, herrors⟩,
  fun h p => ⟨(h p).events, (h p).transmit, (h p).owed, (h p).filter, (h p).errors⟩⟩

/-- A port stays bounded and owes the replies it owed. -/
def PortKept (x y : Port) : Prop := (x.Bounded → y.Bounded) ∧ y.transmit = x.transmit

theorem PortKept.refl (x : Port) : PortKept x x := ⟨id, rfl⟩

theorem PortKept.trans {x y z : Port} (h : PortKept x y) (h' : PortKept y z) : PortKept x z :=
  ⟨fun hx => h'.1 (h.1 hx), h'.2.trans h.2⟩

/-- The bounds are kept, and no port's replies change. -/
structure Within (s t : State) : Prop where
  store : StoreLawful s → StoreLawful t
  ports : ∀ p, PortKept (s.port p) (t.port p)
  memory : Memory.wf s.memory = true → Memory.wf t.memory = true
  planner : PlannerSound s → PlannerSound t

theorem Within.refl (s : State) : Within s s := ⟨id, fun _ => .refl _, id, id⟩

theorem Within.trans (h : Within s t) (h' : Within t u) : Within s u :=
  ⟨fun e => h'.store (h.store e), fun p => (h.ports p).trans (h'.ports p), fun e => h'.memory (h.memory e),
    fun e => h'.planner (h.planner e)⟩

/-- The Cue Store, the serial memory and the ports. -/
def stores (s : State) : CueStore × Memory × Table 3 Port := (s.cues, s.memory, s.ports)

/-- What the Planner's law reads beside the stores: the Planner, and of each lane its state and the result it has to take. -/
def waits (s : State) : Planner × (LaneId → LaneState × Option PlanResult) :=
  (s.planner, fun l => ((s.lane l).state, (s.lane l).planResult))

/-- All that the bounds read. -/
def bounds (s : State) : (CueStore × Memory × Table 3 Port) × Planner × (LaneId → LaneState × Option PlanResult) :=
  (stores s, waits s)

/-- A change that leaves the stores and keeps the Planner's law. -/
theorem Within.of_stores (h : stores t = stores s) (hp : PlannerSound s → PlannerSound t) : Within s t := by
  simp only [stores, Prod.mk.injEq] at h
  obtain ⟨hcues, hmemory, hports⟩ := h
  refine ⟨fun e => ?_, fun p => ?_, fun e => hmemory ▸ e, hp⟩
  · simpa only [StoreLawful, hcues] using e
  · exact (congrArg (fun ps => PortKept (s.ports.get p) (ps.get p)) hports).mpr (.refl _)

theorem PlannerSound.of_waits (h : PlannerSound s) (e : waits t = waits s) : PlannerSound t := by
  simp only [waits, Prod.mk.injEq, funext_iff] at e
  exact h.kept e.1 e.2

/-- A change of nothing that the bounds read. -/
theorem Within.of_bounds (h : bounds t = bounds s) : Within s t := by
  obtain ⟨hstores, hwaits⟩ := Prod.mk.injEq .. ▸ h
  exact .of_stores hstores (·.of_waits hwaits)

/-! Changes of nothing that the bounds read -/

theorem bounds_updLane (f : Lane → Lane)
    (hf : ∀ ln, ((f ln).state, (f ln).planResult) = (ln.state, ln.planResult) := by intro; rfl) :
    bounds (s.updLane l f) = bounds s := by
  refine congrArg (fun w => (stores s, s.planner, w)) (funext fun k => ?_)
  rw [lane_updLane]
  split
  · next e => rw [← e]; exact hf _
  · rfl

theorem bounds_lanes (f : LaneId → Lane → Lane)
    (hf : ∀ l ln, ((f l ln).state, (f l ln).planResult) = (ln.state, ln.planResult)) :
    bounds { s with lanes := s.lanes.mapIdx f } = bounds s := by
  refine congrArg (fun w => (stores s, s.planner, w)) (funext fun k => ?_)
  simp only [State.lane, Table.get_mapIdx]
  exact hf _ _

theorem bounds_deliver (m : LaneMessage) : bounds (s.deliver l m) = bounds s := bounds_updLane _

theorem bounds_deliverAll (m : LaneMessage) : bounds (s.deliverAll m) = bounds s :=
  bounds_lanes (fun _ ln => { ln with inbox := ln.inbox ++ [m] }) (fun _ _ => rfl)

theorem bounds_foldl {α : Type} (f : State → α → State) (hf : ∀ s x, bounds (f s x) = bounds s) (xs : List α)
    (s : State) : bounds (xs.foldl f s) = bounds s := by
  induction xs generalizing s with
  | nil => rfl
  | cons x rest ih => exact (ih _).trans (hf s x)

theorem bounds_ite {p : Prop} [Decidable p] (ht : bounds t = bounds s) (hu : bounds u = bounds s) :
    bounds (if p then t else u) = bounds s := by
  split
  · exact ht
  · exact hu

theorem bounds_noteWrite (byMotion : Bool) : bounds (noteWrite byMotion a s) = bounds s := by
  refine bounds_foldl (fun t n => sendTrip a n t) (fun v n => ?_) _ s
  unfold sendTrip
  split
  · rfl
  · exact (bounds_foldl _ (fun _ _ => bounds_deliver _) _ _).trans (bounds_ite rfl rfl)

theorem bounds_moveSetpoint (v : Nat) : bounds (moveSetpoint a v s) = bounds s := bounds_noteWrite true

theorem bounds_seed (f : Nat) : bounds (seed a f s) = bounds s := by
  unfold seed
  split
  · rfl
  · exact bounds_noteWrite false

theorem bounds_applyFault (cause : FaultCause) : bounds (applyFault a cause s) = bounds s := by
  by_cases h : (s.axis a).state ∈ [AxisState.rest, .moving, .stopping]
  · rw [applyFault_fit s a cause h]
    exact bounds_lanes (s := s)
      (fun k ln => if (s.axis a).owner = some k then { ln with inbox := ln.inbox ++ [.fault a] } else ln)
      (fun _ _ => by split <;> rfl)
  · rw [applyFault_unfit s a cause h]

theorem bounds_setLatch (source : Option Console) : bounds (setLatch source s) = bounds s := by
  unfold setLatch
  split
  · rfl
  · exact bounds_deliverAll _

theorem bounds_qualify (line : Line) : bounds (qualify line s) = bounds s := by
  have hchange (high : Bool) (v : State) : bounds (deliverChange line high v) = bounds v := by
    unfold deliverChange
    split
    · exact bounds_setLatch _
    · exact bounds_deliverAll _
    · exact bounds_deliverAll _
    all_goals rfl
  exact bounds_ite (hchange _ _) rfl

theorem bounds_setController (c : Option Console) : bounds (setController l c s) = bounds s :=
  bounds_updLane (s := s) (l := l) (fun ln => { ln with controller := c })

theorem bounds_takeLane (p : Console) (l : LaneId) (s : State) : bounds (takeLane p l s).1 = bounds s := by
  unfold takeLane
  split
  · exact bounds_setController _
  · split_ifs
    · rfl
    · exact bounds_setController _
    · rfl

theorem bounds_yieldLane (l : LaneId) (s : State) : bounds (yieldLane l s).1 = bounds s := by
  unfold yieldLane
  split
  case h_1 | h_2 | h_3 => exact bounds_setController _
  all_goals rfl

theorem bounds_setHoldLine (source : Byte) (l : LaneId) (s : State) :
    bounds (setHoldLine source l s).1 = bounds s := by
  unfold setHoldLine
  split
  · rfl
  · exact bounds_updLane _

/-! The Motion Generator -/

theorem bounds_evaluateMember (ramp time : Nat) (m : PlanMember) :
    bounds (evaluateMember l ramp time s m) = bounds s :=
  bounds_ite (bounds_ite (bounds_moveSetpoint _) (bounds_moveSetpoint _)) rfl

theorem bounds_generatorWork (l : LaneId) (s : State) : bounds (generatorWork l s) = bounds s := by
  have hrun (c : MotionContext) (plan : PlanRecord) : bounds (runningWork l c plan s) = bounds s := by
    have hmembers (rate time : Nat) (c : MotionContext) :
        bounds (plan.moving.foldl (evaluateMember l plan.ramp time)
          ((s.updLane l (fun ln => { ln with effectiveRate := rate })).setContext l (some c))) = bounds s :=
      (bounds_foldl _ (fun _ _ => bounds_evaluateMember _ _ _) _ _).trans
        (bounds_updLane (s := s) (l := l) (fun ln => { ln with effectiveRate := rate }))
    exact bounds_ite (hmembers _ _ _) (hmembers _ _ _)
  unfold generatorWork
  split
  · rfl
  · split
    · split
      · rfl
      · exact hrun _ _
      · rfl
    · rfl

theorem bounds_takeMark : bounds (takeMark a s) = bounds s := by
  unfold takeMark
  split
  · rfl
  · refine bounds_ite ?_ rfl
    split <;> rfl

/-! The Axis Table and the Supervisor -/

theorem bounds_takeOnlineNotice : bounds (takeOnlineNotice a s) = bounds s := by
  unfold takeOnlineNotice
  split
  · split
    · exact bounds_ite rfl (bounds_ite (bounds_seed _) rfl)
    · rfl
  · rfl

theorem bounds_takeLostNotice : bounds (takeLostNotice a s) = bounds s := by
  have hlost (v : State) : bounds (stationLost a v) = bounds v := by
    unfold stationLost
    split
    · exact bounds_noteWrite false
    · exact bounds_applyFault _
    · exact bounds_applyFault _
    all_goals rfl
  unfold takeLostNotice
  split
  · split
    · exact hlost _
    · rfl
  · rfl

theorem bounds_takeReplyCheck : bounds (takeReplyCheck a s) = bounds s := by
  have hwarn (c : ReplyCheck) (v : State) : bounds (warnLoad c v) = bounds v := by
    unfold warnLoad
    dsimp only
    split
    · rfl
    · split_ifs <;> rfl
  unfold takeReplyCheck
  split
  · rfl
  · unfold checkReply
    split
    · rfl
    · exact hwarn _ _

theorem bounds_returnToRest : bounds (returnToRest a s) = bounds s := by
  unfold returnToRest
  dsimp only
  split
  · exact bounds_seed _
  · rfl

theorem bounds_configureAxis (c : AxisConfig) : bounds (configureAxis a c s) = bounds s := by
  have hinstall : bounds (installConfig a c s) = bounds s := bounds_noteWrite (a := a) false
  unfold configureAxis
  split
  · exact bounds_ite rfl hinstall
  · exact hinstall

theorem bounds_putPair (pair upper lower : Byte) (gap : Half) (s : State) :
    bounds (putPair pair upper lower gap s).1 = bounds s := by
  unfold putPair
  split
  · rfl
  · split
    · rfl
    · split
      · split_ifs <;> rfl
      · rfl

theorem bounds_dropPair (pair : Byte) (s : State) : bounds (dropPair pair s).1 = bounds s := by
  unfold dropPair
  split
  · rfl
  · split <;> rfl

/-! The Drive Link -/

theorem bounds_driveRound : bounds (driveRound s) = bounds s := by
  unfold driveRound
  split
  · split
    · rfl
    · split <;> rfl
  · rfl

theorem bounds_takeSlot (e : StationEntry) (o : ReplyOutcome) : bounds (takeSlot a e o s) = bounds s := by
  have hstore : bounds (storeEntry a e (takeOutcome o e) s) = bounds s := bounds_ite rfl (bounds_ite rfl rfl)
  have hhand (r : Reply) (fr : FrameRecord) (online : Bool) (v : State) : bounds (handOn a r fr online v) = bounds v :=
    (bounds_ite rfl rfl : bounds (handToMotion a r fr _) = _).trans
      ((bounds_ite (bounds_seed _) rfl : bounds (seedUnderLatch a _ _) = _).trans (bounds_ite rfl rfl))
  unfold takeSlot
  dsimp only
  split
  · exact (hhand _ _ _ _).trans hstore
  · exact hstore

theorem bounds_statusFrame (latency : Nat) (bytes : List Byte) : bounds (statusFrame latency bytes s) = bounds s := by
  unfold statusFrame
  split
  · rfl
  · split
    · rfl
    · split
      · rfl
      · exact bounds_takeSlot _ _

theorem bounds_windowExpiry : bounds (windowExpiry s) = bounds s := by
  unfold windowExpiry
  split
  · rfl
  · split
    · rfl
    · exact bounds_takeSlot _ _

theorem bounds_getStation (axis clear : Byte) (s : State) : bounds (getStation axis clear s).1 = bounds s := by
  unfold getStation
  split
  · rfl
  · split
    · rfl
    · split
      · rfl
      · exact bounds_ite rfl rfl

theorem bounds_clearEStop (p : Console) (s : State) : bounds (clearEStop p s).1 = bounds s := by
  unfold clearEStop
  split_ifs <;> rfl

theorem bounds_saveImage (p : Console) (s : State) : bounds (saveImage p s).1 = bounds s := by
  unfold saveImage
  split <;> rfl

end Sys2Proof.Machine

namespace Sys2Proof.Machine

variable {s t u : State} {l k : LaneId} {a b : AxisId}

/-! ### The bounds through the lanes' operations (Chapters 2 and 4) -/

/-- The stores and the Planner: what a lane's own change leaves alone, but for its step, its GO and its withdrawal. -/
def backing (s : State) : (CueStore × Memory × Table 3 Port) × Planner := (stores s, s.planner)

theorem backing_of_bounds (h : bounds t = bounds s) : backing t = backing s := by
  simp only [bounds, waits, backing, Prod.mk.injEq] at h ⊢
  exact ⟨h.1, h.2.1⟩

theorem state_of_bounds (h : bounds t = bounds s) : (t.lane l).state = (s.lane l).state := by
  have hwaits := congrArg (fun x => (x.2.2 l).1) h
  exact hwaits

theorem backing_changeState (st : LaneState) : backing (changeState l st s) = backing s := by
  unfold changeState
  dsimp only
  split <;> rfl

theorem rest_ne_planning {st : LaneState} (h : st.motion = false) : st ≠ .planning := by
  rintro rfl
  simp [LaneState.motion] at h

/-- A lane that is not waited for changes its own affairs and ends outside PLANNING. -/
theorem Within.of_quits (hs : (s.lane l).state ≠ .planning ∨ (s.lane l).planResult ≠ none) (ho : OthersWait l s t)
    (ht : (t.lane l).state ≠ .planning) (hb : backing t = backing s) : Within s t := by
  simp only [backing, Prod.mk.injEq] at hb
  exact .of_stores hb.1 (fun h => h.rests (h.released hs) ho hb.2 ht)

/-- A lane that is not waited for comes to rest. -/
theorem Within.of_rests (hs : (s.lane l).state ≠ .planning ∨ (s.lane l).planResult ≠ none) (hr : LaneRests l s t)
    (hb : backing t = backing s) : Within s t :=
  .of_quits hs hr.calm.othersWait (rest_ne_planning hr.rests) hb

theorem Within.of_ite {p : Prop} [Decidable p] (ht : Within s t) (hu : Within s u) : Within s (if p then t else u) := by
  split
  · exact ht
  · exact hu

/-! Halts (Table 7-2) -/

theorem backing_standDown : backing (standDown l s) = backing s := by
  unfold standDown
  dsimp only
  split
  · exact backing_changeState _
  · exact backing_changeState _

theorem bounds_haltMember : bounds (haltMember l s a) = bounds s := by
  unfold haltMember
  exact bounds_ite (bounds_ite rfl rfl) rfl

theorem backing_endTest : backing (endTest l s) = backing s := by
  unfold endTest
  split
  · exact backing_changeState _
  · rfl

theorem backing_controlledStop (cause : HaltCause) : backing (controlledStop l cause s) = backing s :=
  ((backing_endTest.trans (backing_changeState _)).trans
    (backing_of_bounds (bounds_foldl (haltMember l) (fun _ _ => bounds_haltMember) _ _))).trans rfl

theorem within_endTest : Within s (endTest l s) := by
  by_cases h : (s.lane l).state = .stopping
  · exact .of_quits (.inl (by simp [h])) calmBut_endTest.othersWait (rest_ne_planning (endTest_rests (by rw [h]; rfl)))
      backing_endTest
  · rw [endTest, if_neg (fun hs => h hs.1)]
    exact .refl s

/-- A halt in PLANNING sends the lane's withdrawal with it (R67, R86). -/
theorem within_planningHalt (cause : HaltCause) : Within s (planningHalt l cause s) := by
  have hb : backing (planningHalt l cause s) = backing (askWithdrawal l s) := backing_standDown
  simp only [backing, Prod.mk.injEq] at hb
  obtain ⟨hstores, hplanner⟩ := hb
  have hr : LaneRests l s (planningHalt l cause s) := laneRests_planningHalt cause
  refine .of_stores hstores (fun h => h.turns hr.calm.othersWait (ws := [l]) hplanner (fun _ => ?_))
  refine ⟨.inr ?_, fun e => absurd e (rest_ne_planning hr.rests)⟩
  rw [hplanner]
  exact List.mem_append_right _ (List.mem_singleton_self l)

theorem within_releaseHalt (cause : HaltCause) (h : (s.lane l).state = .releasing) :
    Within s (releaseHalt l cause s) :=
  .of_rests (.inl (by simp [h])) (laneRests_releaseHalt cause) backing_standDown

theorem within_controlledStop (cause : HaltCause) (h : (s.lane l).state = .running) :
    Within s (controlledStop l cause s) :=
  .of_rests (.inl (by simp [h])) (laneRests_controlledStop cause) (backing_controlledStop cause)

theorem within_endFollow (h : (s.lane l).state = .follow) : Within s (endFollow l s) :=
  .of_rests (.inl (by simp [h])) laneRests_endFollow (backing_changeState _)

theorem within_haltLane (cause : HaltCause) : Within s (haltLane l cause s) := by
  unfold haltLane
  split
  · exact within_planningHalt cause
  · next h => exact within_releaseHalt cause h
  · next h => exact within_controlledStop cause h
  · next h => exact (Within.of_bounds (bounds_updLane _)).trans (within_endFollow (by simpa [recordHalt] using h))
  all_goals exact .refl s

theorem within_emergencyLane (l : LaneId) (s : State) : Within s (emergencyLane l s) := by
  have hold (h : (s.lane l).state ≠ .planning) : Within s (emergencyHold l s) :=
    .of_rests (.inl h) laneRests_emergencyHold (backing_changeState _)
  unfold emergencyLane
  split
  · exact within_planningHalt _
  · next h => exact hold (by simp [h])
  · next h => exact hold (by simp [h])
  · next h => exact hold (by simp [h])
  all_goals exact .refl s

theorem within_enableLoss (l : LaneId) (c : Console) (s : State) : Within s (enableLoss l c s) :=
  .of_ite (within_haltLane _) (.refl s)

theorem within_faultNotice (l : LaneId) (a : AxisId) (s : State) : Within s (faultNotice l a s) := by
  unfold faultNotice
  split
  · split
    · next h => exact within_releaseHalt _ h
    · next h => exact within_controlledStop _ h
    · exact within_endTest
    all_goals exact .refl s
  · exact .refl s

theorem within_interlockTrip (l : LaneId) (n : PairId) (s : State) : Within s (interlockTrip l n s) := by
  unfold interlockTrip
  split
  · exact .refl s
  · split
    · next h => exact within_controlledStop _ h.1
    · exact .refl s

theorem within_holdAssertion (l : LaneId) (n : HoldLine) (s : State) : Within s (holdAssertion l n s) := by
  have hlatch : Within s (s.updLane l (fun ln => { ln with holdLatch := true })) := .of_bounds (bounds_updLane _)
  unfold holdAssertion
  split
  · split
    · exact hlatch
    · exact hlatch
    · exact hlatch
    · next h => exact (Within.of_bounds (bounds_updLane _)).trans (within_endFollow (by simpa [clearHold] using h))
    all_goals exact .refl s
  · exact .refl s

theorem within_takeDelivery (m : LaneMessage) (act : State → State) (h : ∀ s, Within s (act s)) :
    Within s (takeDelivery l m act s) :=
  .of_ite ((Within.of_bounds (bounds_updLane _)).trans (h _)) (.refl s)

/-! Plan results and release (R65, R66, R68) -/

/-- A lane that takes an accepted plan leaves PLANNING, and its result is taken with it. -/
theorem within_acceptPlan {r : PlanResult} (plan : PlanRecord) (hs : (s.lane l).state = .planning)
    (hr : (s.lane l).planResult = some r) :
    Within s (acceptPlan l plan (s.updLane l (fun ln => { ln with planResult := none }))) := by
  rw [acceptPlan_eq plan (by simpa using hs), startMember_all]
  refine .of_quits (l := l) (.inr (by simp [hr])) (fun k hk => ?_) ?_ rfl
  · have hlane (f g : Lane → Lane) : ((s.lanes.modify l f).modify l g).get k = s.lane k := by
      rw [Table.get_modify_of_ne _ _ hk.symm, Table.get_modify_of_ne _ _ hk.symm]; rfl
    exact ⟨congrArg Lane.state (hlane _ _), congrArg Lane.planResult (hlane _ _)⟩
  · refine ne_of_eq_of_ne (congrArg Lane.state (lane_updLane_same _ _ _)) ?_
    unfold acceptLane
    dsimp only
    split <;> simp

theorem within_takeResult (l : LaneId) (s : State) : Within s (takeResult l s) := by
  unfold takeResult
  split
  · next r hs hr =>
    have hreject (reason : VoidReason) :
        Within s (rejectPlan l reason (s.updLane l (fun ln => { ln with planResult := none }))) :=
      .of_rests (.inr (by simp [hr])) (.after (calmBut_updLane _) (laneRests_rejectPlan reason)) backing_standDown
    dsimp only
    split
    · exact within_acceptPlan _ hs hr
    all_goals exact hreject _
  · exact .refl s

theorem within_endRelease (l : LaneId) (s : State) : Within s (endRelease l s) := by
  unfold endRelease
  split
  · next h _ =>
    refine .of_ite (.of_quits (.inl (by simp [h])) calmBut_enterRunning.othersWait ?_ (backing_changeState _)) (.refl s)
    rw [enterRunning, changeState_state]
    simp
  · exact .refl s

theorem within_expireRelease (l : LaneId) (s : State) : Within s (expireRelease l s) := by
  unfold expireRelease
  split
  · next h _ =>
    split
    · next a rest _ =>
      have hfaults : bounds ((a :: rest).foldl (fun t b => applyFault b .brakeTimeout t) s) = bounds s :=
        bounds_foldl _ (fun _ _ => bounds_applyFault _) _ _
      refine .trans (.of_bounds hfaults) (.of_rests (.inl ?_) (laneRests_standDown
        (((calmBut_recordHalt _).trans calm_restMembers.but).trans calmBut_dropContext)) backing_standDown)
      have hstate := (calm_foldl (fun t b => applyFault b .brakeTimeout t) (fun _ _ => calm_applyFault _)
        (a :: rest) s).lanes l |>.state
      rw [hstate, h]
      simp
    · exact .refl s
  · exact .refl s

/-! GO, follow waits and step completion (R61 to R63, R74 to R78) -/

theorem stores_enterPlanning (resume : Bool) (hs : (s.lane l).state ≠ .planning) {c : Option Console}
    (hgo : goChecks l c s = .ok t) : stores (enterPlanning l resume t) = stores s := by
  obtain ⟨st, -, rfl, -⟩ := goChecks_ok hgo
  have hjoin := congrArg stores (joinQueue_frame l (claimed l resume (st.moves.map (·.axis)) s))
  rw [enterPlanning_eq resume _ hs]
  exact hjoin

theorem within_enterPlanning {c : Option Console} (resume : Bool) (hs : (s.lane l).state ≠ .planning)
    (hgo : goChecks l c s = .ok t) : Within s (enterPlanning l resume t) :=
  .of_stores (stores_enterPlanning resume hs hgo) (fun h => h.enterPlanning hs resume hgo)

theorem within_automaticGo (h : (s.lane l).state = .follow) : Within s (automaticGo l s) := by
  unfold automaticGo
  split
  · next hgo => exact within_enterPlanning false (by simp [h]) hgo
  · exact (within_endFollow h).trans (.of_bounds rfl)

theorem within_followCount (l : LaneId) (s : State) : Within s (followCount l s) := by
  unfold followCount
  dsimp only
  split
  · next h =>
    refine .of_ite (.trans ?_ (within_automaticGo (by simpa using h.1))) ?_ <;> exact .of_bounds (bounds_updLane _)
  · exact .refl s

theorem within_linkedCount (l : LaneId) (s : State) : Within s (linkedCount l s) := by
  unfold linkedCount
  dsimp only
  split
  · next h =>
    refine .of_ite (.trans ?_ (within_automaticGo (by simpa using h.1))) ?_ <;> exact .of_bounds (bounds_updLane _)
  · exact .refl s

theorem bounds_release : bounds (release l s) = bounds s := bounds_updLane (s := s) (fun ln => { ln with claimSet := [] })

theorem bounds_closeStep : bounds (closeStep l s) = bounds s := by
  have hoffer (v : State) : bounds (offerCompletion l v) = bounds v := bounds_lanes _ (fun _ _ => by split <;> rfl)
  have hgone : bounds (release l ((settleArrivals l s).setContext l none)) = bounds s := bounds_release
  unfold closeStep
  dsimp only
  exact (hoffer _).trans ((bounds_updLane (s := release l ((settleArrivals l s).setContext l none)) _).trans hgone)

theorem within_changeState {st : LaneState} (h : (s.lane l).state ≠ .planning) (hst : st ≠ .planning) :
    Within s (changeState l st s) :=
  .of_quits (.inl h) (calmBut_changeState st).othersWait (by rwa [changeState_state]) (backing_changeState st)

theorem within_enterFollow (kind : FollowKind) (count : Nat) (h : (s.lane l).state ≠ .planning) :
    Within s (enterFollow l kind count s) := by
  have hfollow := (Within.of_bounds (bounds_updLane (s := s) (l := l) (fun ln =>
    { ln with followCounter := count, followKind := some kind, followDue := false, decrements := 0 }))).trans
      (within_changeState (l := l) (st := .follow) (by simpa using h) (by simp))
  exact .of_ite (hfollow.trans (within_automaticGo (changeState_state _))) hfollow

theorem within_continueSequence (mode : FollowMode) (h : (s.lane l).state ≠ .planning) :
    Within s (continueSequence l mode s) := by
  have hready : Within s (changeState l .ready s) := within_changeState h (by simp)
  unfold continueSequence
  split
  · exact (Within.of_bounds (bounds_updLane _)).trans (within_changeState (by simpa [clearHold] using h) (by simp))
  · split
    · exact hready
    · exact within_enterFollow _ _ h
    · exact .of_ite hready (within_enterFollow _ _ h)

theorem within_endSequence (broken : Bool) (h : (s.lane l).state ≠ .planning) : Within s (endSequence l broken s) :=
  .of_rests (.inl h) (laneRests_endSequence broken) (backing_changeState _)

theorem within_completeStep (l : LaneId) (s : State) : Within s (completeStep l s) := by
  unfold completeStep
  split
  · next h _ =>
    split
    · have hclosed : ((closeStep l s).lane l).state ≠ .planning := by
        rw [state_of_bounds bounds_closeStep, h]
        simp
      dsimp only
      split
      · exact (Within.of_bounds bounds_closeStep).trans (within_endSequence _ hclosed)
      · exact ((Within.of_bounds bounds_closeStep).trans (.of_bounds (bounds_updLane _))).trans
          (within_continueSequence _ (by simpa using hclosed))
    · exact .refl s
  · exact .refl s

theorem within_stopStep (a : AxisId) (s : State) : Within s (stopStep a s) := by
  have hmove (v : Nat) (t : State) (ht : bounds t = bounds s) : Within s (moveSetpoint a v t) :=
    .of_bounds ((bounds_moveSetpoint v).trans ht)
  have hrest (t : State) (ht : Within s t) : Within s ((setAxisState a .rest t).setStop a none) :=
    ht.trans (.of_bounds rfl)
  unfold stopStep
  split
  · split
    · unfold trajectoryStep
      dsimp only
      split
      · split
        · refine .trans (hrest _ (hmove _ _ ?_)) within_endTest
          exact bounds_ite rfl rfl
        · exact hrest _ (hmove _ _ (bounds_ite rfl rfl))
      · exact hmove _ _ (bounds_ite rfl rfl)
    · exact .refl s
  · exact .refl s

/-! Lane requests -/

theorem within_loadStep (r : StepRef) (h : (s.lane l).state ≠ .planning) : Within s (loadStep l r s) :=
  .of_rests (.inl h) (laneRests_loadStep r) (backing_changeState _)

theorem within_loadLane (step : Half) (l : LaneId) (s : State) : Within s (loadLane step l s).1 := by
  have hgone : bounds (letGo l s) = bounds s := bounds_release.trans (bounds_updLane _)
  unfold loadLane
  cases stepOf step with
  | none => exact .refl s
  | some n =>
    cases hs : (s.lane l).state <;> dsimp only
    case idle | ready =>
      split
      · exact .refl s
      · rw [if_neg (by simp)]
        exact within_loadStep _ (by simp [hs])
    case held =>
      split
      · exact .refl s
      · rw [if_pos rfl]
        exact (Within.of_bounds hgone).trans (within_loadStep _ (by rw [state_of_bounds hgone, hs]; simp))
    all_goals exact .refl s

theorem within_clearLane (l : LaneId) (s : State) : Within s (clearLane l s).1 := by
  have hclear (hs : (s.lane l).state ≠ .planning) : Within s (changeState l .idle ((letGo l s).updLane l (fun ln =>
      { ln with holdLatch := false, haltCause := .none, followDue := false, decrements := 0 }))) :=
    .of_rests (.inl hs) (laneRests_changeState (calmBut_letGo.trans (calmBut_updLane _)) rfl) (backing_changeState _)
  unfold clearLane
  split
  · exact .of_bounds (bounds_updLane _)
  · next h => exact hclear (by simp [h])
  · next h => exact hclear (by simp [h])
  · next h => exact hclear (by simp [h])
  all_goals exact .refl s

theorem within_goLane (p : Console) (l : LaneId) (s : State) : Within s (goLane p l s).1 := by
  unfold goLane
  split
  · next h =>
    split
    · next hgo => exact within_enterPlanning _ (by simp [h]) hgo
    · exact .refl s
  · next h =>
    split
    · next hgo => exact within_enterPlanning _ (by simp [h]) hgo
    · exact .refl s
  · next h =>
    split
    · next hgo => exact within_enterPlanning _ (by simp [h]) hgo
    · exact within_endFollow h
  all_goals exact .refl s

/-! The Planner (R84 to R86) -/

theorem within_completePlan : Within s (completePlan s) := by
  refine .of_stores ?_ PlannerSound.completePlan
  have hdeliver (l : LaneId) (r : PlanResult) (v : State) : stores (deliverResult l r v) = stores v := by
    unfold deliverResult
    split <;> rfl
  have hstart (v : State) : stores (startService v) = stores v := by
    unfold startService
    split <;> rfl
  unfold completePlan
  split
  · rfl
  · refine (hstart _).trans ?_
    split
    · rfl
    · exact hdeliver _ _ _

theorem within_planWithdrawal :
    Within s (if l ∈ s.planner.withdrawals then { s with planner := withdraw l s.planner } else s) :=
  .of_ite (.of_stores rfl (fun h => h.withdraw l)) (.refl s)

end Sys2Proof.Machine

namespace Sys2Proof.Machine

variable {m : RawMove} {x : Move} {ms : List RawMove} {xs : List Move} {b : RawStep} {st : Step}

/-! ### The checks of a step's fields (R43, R46, R49) -/

/-- Each field of a move entry is in its range (R43 check 3). -/
def EntryFits (m : RawMove) : Prop :=
  m.axis.toNat ≤ 47 ∧ m.target.toNat ≤ 40000 ∧ (m.delay.getD 0).toNat ≤ 4095

theorem axisOf_some {v : Byte} {a : AxisId} : axisOf v = some a ↔ a.val = v.toNat := by
  unfold axisOf
  split
  · next h => rw [Option.some.injEq, Fin.ext_iff, eq_comm]
  · next h =>
    constructor
    · intro e; cases e
    · intro e; exact absurd (e ▸ a.isLt) h

theorem checkMove_iff : checkMove m = some x ↔ EntryFits m ∧
    (x.axis.val, x.target, x.cap, x.delay) =
      (m.axis.toNat, m.target.toNat, m.cap.map storedCap, m.delay.map (·.toNat)) := by
  have hdelay : (m.delay.map (·.toNat)).getD 0 = (m.delay.getD 0).toNat := by cases m.delay <;> rfl
  unfold checkMove
  rw [hdelay]
  cases haxis : axisOf m.axis with
  | none =>
    have hout : ¬ m.axis.toNat < 48 := fun h => by simp [axisOf, h] at haxis
    simp only [reduceCtorEq, EntryFits, false_iff]
    exact fun h => hout (Nat.lt_succ_of_le h.1.1)
  | some a =>
    have ha : a.val = m.axis.toNat := axisOf_some.1 haxis
    have hin : m.axis.toNat ≤ 47 := ha ▸ Nat.le_of_lt_succ a.isLt
    obtain ⟨xa, xt, xc, xd⟩ := x
    dsimp only
    split
    · next hout =>
      simp only [reduceCtorEq, EntryFits, false_iff]
      intro h
      omega
    · next hfit =>
      rw [not_or, Nat.not_lt, Nat.not_lt] at hfit
      simp only [Option.some.injEq, Move.mk.injEq, Prod.mk.injEq, EntryFits, hin, hfit, and_self, true_and, Fin.ext_iff, ha]
      exact ⟨fun ⟨h1, h2, h3, h4⟩ => ⟨h1.symm, h2.symm, h3.symm, h4.symm⟩,
        fun ⟨h1, h2, h3, h4⟩ => ⟨h1.symm, h2.symm, h3.symm, h4.symm⟩⟩

theorem checkMoves_iff : checkMoves ms = some xs ↔ (∀ m ∈ ms, EntryFits m) ∧ StoredAs ms xs := by
  induction ms generalizing xs with
  | nil =>
    constructor
    · rintro ⟨⟩
      exact ⟨fun _ h => absurd h List.not_mem_nil, rfl⟩
    · rintro ⟨-, h⟩
      rw [List.map_eq_nil_iff.1 h, checkMoves]
  | cons m rest ih =>
    have hcons : checkMoves (m :: rest) = some xs ↔
        ∃ x ys, checkMove m = some x ∧ checkMoves rest = some ys ∧ xs = x :: ys := by
      rw [checkMoves]
      cases checkMove m with
      | none => simp
      | some x => cases checkMoves rest <;> simp [eq_comm]
    rw [hcons, List.forall_mem_cons]
    constructor
    · rintro ⟨x, ys, hx, hys, rfl⟩
      obtain ⟨hfit, hstored⟩ := checkMove_iff.1 hx
      obtain ⟨hfits, hrest⟩ := ih.1 hys
      exact ⟨⟨hfit, hfits⟩, List.cons_eq_cons.2 ⟨hstored, hrest⟩⟩
    · rintro ⟨⟨hfit, hfits⟩, hstored⟩
      obtain ⟨x, ys, rfl, hx, hys⟩ := List.map_eq_cons_iff.1 hstored
      exact ⟨x, ys, checkMove_iff.2 ⟨hfit, hx⟩, ih.2 ⟨hfits, hys⟩, rfl⟩

/-- Entries in range have a form in which they are stored. -/
theorem exists_storedAs (h : ∀ m ∈ ms, EntryFits m) : ∃ xs, StoredAs ms xs := by
  induction ms with
  | nil => exact ⟨[], rfl⟩
  | cons m rest ih =>
    obtain ⟨⟨haxis, -⟩, hrest⟩ := List.forall_mem_cons.1 h
    obtain ⟨xs, hxs⟩ := ih hrest
    exact ⟨⟨⟨m.axis.toNat, Nat.lt_succ_of_le haxis⟩, m.target.toNat, m.cap.map storedCap, m.delay.map (·.toNat)⟩ :: xs,
      List.cons_eq_cons.2 ⟨rfl, hxs⟩⟩

/-- Stored entries name the axes the request names, so that either list names an axis twice or neither does. -/
theorem StoredAs.nodup_iff (h : StoredAs ms xs) : (xs.map (·.axis)).Nodup ↔ (ms.map (·.axis)).Nodup := by
  have haxes : (xs.map (·.axis)).map Fin.val = (ms.map (·.axis)).map BitVec.toNat := by
    simpa only [List.map_map, Function.comp_def] using congrArg (List.map Prod.fst) h
  rw [← List.nodup_map_iff Fin.val_injective, haxes, List.nodup_map_iff (fun _ _ => BitVec.eq_of_toNat_eq)]

theorem StoredAs.length (h : StoredAs ms xs) : xs.length = ms.length := by
  simpa only [List.length_map] using congrArg List.length h

theorem checkList_iff {longest : Nat} : checkList longest ms = some xs ↔ movesLawful longest ms ∧ StoredAs ms xs := by
  unfold checkList
  constructor
  · intro h
    split_ifs at h with hlength
    split at h
    · cases h
    · next ys hys =>
      split_ifs at h with hnodup
      cases h
      obtain ⟨hfits, hstored⟩ := checkMoves_iff.1 hys
      exact ⟨⟨by omega, by omega, hfits, hstored.nodup_iff.1 hnodup⟩, hstored⟩
  · rintro ⟨⟨hpos, hlong, hfits, hnodup⟩, hstored⟩
    rw [if_neg (by omega), checkMoves_iff.2 ⟨hfits, hstored⟩]
    exact if_pos (hstored.nodup_iff.2 hnodup)

theorem checkList_some {longest : Nat} (h : movesLawful longest ms) :
    ∃ xs, checkList longest ms = some xs ∧ StoredAs ms xs := by
  obtain ⟨xs, hxs⟩ := exists_storedAs h.2.2.1
  exact ⟨xs, checkList_iff.2 ⟨h, hxs⟩, hxs⟩

/-- A list that passes its checks is stored as a lawful one. -/
theorem checkList_lawful {longest : Nat} (h : checkList longest ms = some xs) : lawfulMoves longest xs := by
  obtain ⟨⟨hpos, hlong, -, hnodup⟩, hstored⟩ := checkList_iff.1 h
  exact ⟨hstored.length ▸ hpos, hstored.length ▸ hlong, hstored.nodup_iff.2 hnodup⟩

theorem rampOk_iff {rs : Half} : rampOk rs = true ↔ 10 ≤ rs.toNat ∧ rs.toNat ≤ 400 := by
  simp [rampOk]

/-! The follow mode and the next step -/

section
variable {kind fb : Byte} {fa n : Half}

theorem checkFollow_manual (h : kind = 0) : checkFollow kind fa fb = some .manual := by
  subst h
  rfl

theorem checkFollow_timed (h : kind = 1) : checkFollow kind fa fb = some (.timed fa.toNat) := by
  subst h
  rfl

theorem checkFollow_linked {k : LaneId} (h : kind = 2) (hk : k.val = fa.toNat) (hb : 1 ≤ fb.toNat ∧ fb.toNat ≤ 15) :
    checkFollow kind fa fb = some (.linked k fb.toNat) := by
  subst h
  rw [show k = ⟨fa.toNat, hk ▸ k.isLt⟩ from Fin.ext hk]
  exact (dif_pos _).trans (if_pos hb)

theorem checkFollow_isSome : (∃ f, checkFollow kind fa fb = some f) ↔
    kind = 0 ∨ kind = 1 ∨ (kind = 2 ∧ fa.toNat ≤ 7 ∧ 1 ≤ fb.toNat ∧ fb.toNat ≤ 15) := by
  constructor
  · rintro ⟨f, h⟩
    unfold checkFollow at h
    split at h
    · next e => exact .inl (BitVec.eq_of_toNat_eq e)
    · next e => exact .inr (.inl (BitVec.eq_of_toNat_eq e))
    · next e =>
      split_ifs at h with hlane hcount
      exact .inr (.inr ⟨BitVec.eq_of_toNat_eq e, Nat.le_of_lt_succ hlane, hcount⟩)
    · cases h
  · rintro (h | h | ⟨h, hlane, hcount⟩)
    · exact ⟨_, checkFollow_manual h⟩
    · exact ⟨_, checkFollow_timed h⟩
    · exact ⟨_, checkFollow_linked (k := ⟨fa.toNat, Nat.lt_succ_of_le hlane⟩) h rfl hcount⟩

theorem checkNext_of_ne (h : n ≠ 0xFFFF) : checkNext n = (stepOf n).map some := if_neg h

theorem stepOf_of_le (h : n.toNat ≤ 511) : stepOf n = some ⟨n.toNat, Nat.lt_succ_of_le h⟩ := dif_pos _

theorem checkNext_isSome : (∃ no, checkNext n = some no) ↔ n.toNat ≤ 511 ∨ n = 0xFFFF := by
  by_cases hend : n = 0xFFFF
  · exact ⟨fun _ => .inr hend, fun _ => ⟨none, hend ▸ rfl⟩⟩
  · rw [checkNext_of_ne hend]
    by_cases hin : n.toNat ≤ 511
    · exact ⟨fun _ => .inl hin, fun _ => ⟨_, congrArg (Option.map some) (stepOf_of_le hin)⟩⟩
    · rw [stepOf_none (Nat.lt_of_not_le hin)]
      exact ⟨fun h => (nomatch h), fun h => absurd h (not_or.2 ⟨hin, hend⟩)⟩

theorem checkNext_val {no : Option StepNo} (h : checkNext n = some no) :
    no.map (·.val) = if n = 0xFFFF then none else some n.toNat := by
  split
  · next hend =>
    subst hend
    cases h
    rfl
  · next hend =>
    have hin := (checkNext_isSome.1 ⟨no, h⟩).resolve_right hend
    rw [checkNext_of_ne hend, stepOf_of_le hin] at h
    cases h
    rfl

end

/-! The step a request spells -/

theorem checkStep_iff : checkStep b = some st ↔ ∃ moves follow next,
    checkList 16 b.moves = some moves ∧ checkFollow b.followKind b.followA b.followB = some follow ∧
      checkNext b.next = some next ∧ rampOk b.rs = true ∧
      st = ⟨b.label.toNat, b.rs.toNat, b.tn.toNat, follow, next, moves⟩ := by
  unfold checkStep
  constructor
  · intro h
    split at h
    · next moves follow next hmoves hfollow hnext =>
      split_ifs at h with hramp
      exact ⟨moves, follow, next, hmoves, hfollow, hnext, hramp, (Option.some.inj h).symm⟩
    · cases h
  · rintro ⟨moves, follow, next, hmoves, hfollow, hnext, hramp, rfl⟩
    simp only [hmoves, hfollow, hnext, hramp, if_pos]

theorem checkStep_some (h : stepLawful b) : ∃ st, checkStep b = some st := by
  obtain ⟨hmoves, hlow, hhigh, hfollow, hnext⟩ := h
  obtain ⟨xs, hxs, -⟩ := checkList_some hmoves
  obtain ⟨follow, hfollow⟩ := checkFollow_isSome.2 hfollow
  obtain ⟨no, hno⟩ := checkNext_isSome.2 hnext
  exact ⟨_, checkStep_iff.2 ⟨xs, follow, no, hxs, hfollow, hno, rampOk_iff.2 ⟨hlow, hhigh⟩, rfl⟩⟩

theorem checkStep_none (h : ¬ stepLawful b) : checkStep b = none := by
  refine Option.eq_none_iff_forall_ne_some.2 (fun st e => h ?_)
  obtain ⟨xs, follow, no, hxs, hfollow, hno, hramp, -⟩ := checkStep_iff.1 e
  obtain ⟨hlow, hhigh⟩ := rampOk_iff.1 hramp
  exact ⟨(checkList_iff.1 hxs).1, hlow, hhigh, checkFollow_isSome.1 ⟨_, hfollow⟩, checkNext_isSome.1 ⟨_, hno⟩⟩

theorem checkStep_lawful (h : checkStep b = some st) : lawfulMoves 16 st.moves := by
  obtain ⟨xs, -, -, hxs, -, -, -, rfl⟩ := checkStep_iff.1 h
  exact checkList_lawful hxs

section
variable {rs tn : Half}

theorem checkDirect_iff : checkDirect rs tn ms = some st ↔ ∃ moves, checkList 4 ms = some moves ∧ rampOk rs = true ∧
    st = ⟨0, rs.toNat, tn.toNat, .manual, none, moves⟩ := by
  unfold checkDirect
  constructor
  · intro h
    split at h
    · next moves hmoves =>
      split_ifs at h with hramp
      exact ⟨moves, hmoves, hramp, (Option.some.inj h).symm⟩
    · cases h
  · rintro ⟨moves, hmoves, hramp, rfl⟩
    simp only [hmoves, hramp, if_pos]

theorem checkDirect_none (h : ¬ (10 ≤ rs.toNat ∧ rs.toNat ≤ 400 ∧ movesLawful 4 ms)) : checkDirect rs tn ms = none := by
  refine Option.eq_none_iff_forall_ne_some.2 (fun st e => h ?_)
  obtain ⟨xs, hxs, hramp, -⟩ := checkDirect_iff.1 e
  obtain ⟨hlow, hhigh⟩ := rampOk_iff.1 hramp
  exact ⟨hlow, hhigh, (checkList_iff.1 hxs).1⟩

theorem checkDirect_some (hlow : 10 ≤ rs.toNat) (hhigh : rs.toNat ≤ 400) (h : movesLawful 4 ms) :
    ∃ moves, checkDirect rs tn ms = some ⟨0, rs.toNat, tn.toNat, .manual, none, moves⟩ ∧ StoredAs ms moves := by
  obtain ⟨xs, hxs, hstored⟩ := checkList_some h
  exact ⟨xs, checkDirect_iff.2 ⟨xs, hxs, rampOk_iff.2 ⟨hlow, hhigh⟩, rfl⟩, hstored⟩

theorem checkDirect_lawful (h : checkDirect rs tn ms = some st) : lawfulMoves 4 st.moves := by
  obtain ⟨xs, hxs, -, rfl⟩ := checkDirect_iff.1 h
  exact checkList_lawful hxs

end

end Sys2Proof.Machine

namespace Sys2Proof.Machine

variable {s t u : State} {l k : LaneId} {a b : AxisId}

/-! ### The Cue Store's bounds (R42 to R49) -/

/-- The pool count, step by step. -/
theorem taken_eq_sum (c : CueStore) : c.taken = ∑ n, entries (c.slots.get n) := by
  rw [CueStore.taken, Table.cells_eq, List.map_map, Fin.sum_univ_def]
  rfl

/-- A slot written gives back what it held and takes what it holds. -/
theorem taken_set (c : CueStore) (n : StepNo) (so : Option Step) :
    ({ c with slots := c.slots.set n so } : CueStore).taken + entries (c.slots.get n) = c.taken + entries so := by
  have hset : (fun m => entries ((c.slots.set n so).get m)) =
      Function.update (fun m => entries (c.slots.get m)) n (entries so) := by
    funext m
    by_cases h : n = m
    · subst h; simp
    · rw [Table.get_set_of_ne _ _ h, Function.update_of_ne (Ne.symm h)]
  have hold := Finset.sum_eq_add_sum_sdiff_singleton_of_mem (Finset.mem_univ n) (fun m => entries (c.slots.get m))
  simp only [taken_eq_sum, hset, Finset.sum_update_of_mem (Finset.mem_univ n), hold]
  omega

theorem StoreLawful.setSlot {n : StepNo} {so : Option Step} (h : StoreLawful s)
    (hso : ∀ st, so = some st → lawfulMoves 16 st.moves)
    (hroom : entries so ≤ s.cues.free + entries (s.cues.slots.get n)) : StoreLawful (setSlot n so s) := by
  obtain ⟨hslots, hprivates, hpool⟩ := h
  refine ⟨fun m st hst => ?_, hprivates, ?_⟩
  · by_cases e : n = m
    · subst e
      exact hso st ((Table.get_set_same _ _ _).symm.trans hst)
    · exact hslots m st ((Table.get_set_of_ne _ _ e).symm.trans hst)
  · have htaken : (Machine.setSlot n so s).cues.taken + entries (s.cues.slots.get n) = s.cues.taken + entries so :=
      taken_set s.cues n so
    simp only [CueStore.free] at hroom
    omega

theorem StoreLawful.setPrivate {st : Step} (h : StoreLawful s) (hst : lawfulMoves 4 st.moves) :
    StoreLawful { s with cues := { s.cues with privates := s.cues.privates.set l (some st) } } := by
  obtain ⟨hslots, hprivates, hpool⟩ := h
  refine ⟨hslots, fun m st' hst' => ?_, hpool⟩
  by_cases e : l = m
  · subst e
    cases (Table.get_set_same _ _ _).symm.trans hst'
    exact hst
  · exact hprivates m st' ((Table.get_set_of_ne _ _ e).symm.trans hst')

/-- A change of the Cue Store alone. -/
theorem Within.of_cues (c : CueStore) (h : StoreLawful s → StoreLawful { s with cues := c }) :
    Within s { s with cues := c } :=
  ⟨h, fun _ => .refl _, id, fun e => e⟩

theorem within_putStep (step : Half) (b : RawStep) (s : State) : Within s (putStep step b s).1 := by
  unfold putStep
  split
  · next n st _ hst =>
    split_ifs with _ hfull
    · exact .refl s
    · exact .refl s
    · refine .of_cues _ (fun h => h.setSlot (fun x hx => ?_) (by simpa [entries] using hfull))
      cases hx
      exact checkStep_lawful hst
  · exact .refl s

theorem within_dropStep (step : Half) (s : State) : Within s (dropStep step s).1 := by
  unfold dropStep
  split
  · exact .refl s
  · split_ifs
    · exact .refl s
    · exact .refl s
    · exact .of_cues _ (fun h => h.setSlot (fun _ hx => nomatch hx) (Nat.zero_le _))

theorem within_writeDirect {st : Step} (h : (s.lane l).state ≠ .planning) (hst : lawfulMoves 4 st.moves) :
    Within s (writeDirect l st s) :=
  (Within.of_cues _ (fun hs => hs.setPrivate hst)).trans (within_loadStep .direct h)

theorem within_directLane (p : Console) (rs tn : Half) (ms : List RawMove) (l : LaneId) (s : State) :
    Within s (directLane p rs tn ms l s).1 := by
  have hgo (st : Step) (hst : checkDirect rs tn ms = some st) (c : Answer) (f : Refused → Answer)
      (hs : (s.lane l).state ≠ .planning) :
      Within s (match goChecks l (some p) (writeDirect l st s) with
        | .ok s2 => (enterPlanning l false s2, c)
        | .error r => (writeDirect l st s, f r)).1 := by
    have hwritten : Within s (writeDirect l st s) := within_writeDirect hs (checkDirect_lawful hst)
    split
    · next hgo =>
      exact hwritten.trans (within_enterPlanning false (by rw [writeDirect, loadStep, changeState_state]; simp) hgo)
    · exact hwritten
  unfold directLane
  split
  · exact .refl s
  · next st hst =>
    split
    · next hs => exact hgo st hst _ _ (by simp [hs])
    · next hs => exact hgo st hst _ _ (by simp [hs])
    all_goals exact .refl s

/-! ### The ports' bounds (R169 to R182) -/

theorem PortKept.offered (es : List EventRecord) (pt : Port) : PortKept pt (offered es pt) := by
  have hone (e : EventRecord) (pt : Port) : PortKept pt (offerPort e pt) := by
    unfold offerPort
    split
    · split
      · next h =>
        refine ⟨fun hb => { hb with events := ?_ }, rfl⟩
        simpa using h
      · exact ⟨fun hb => { hb with }, rfl⟩
    · unfold setPending
      split <;> exact ⟨fun hb => { hb with }, rfl⟩
  induction es generalizing pt with
  | nil => exact .refl pt
  | cons e rest ih => exact (hone e pt).trans (ih _)

/-- A change of the ports alone. -/
theorem Within.of_ports (ps : Table 3 Port) (h : ∀ p, PortKept (s.port p) (ps.get p)) :
    Within s { s with ports := ps } :=
  ⟨id, h, id, fun e => e⟩

theorem within_updPort {p : Console} (f : Port → Port) (hf : ∀ pt, PortKept pt (f pt)) : Within s (s.updPort p f) := by
  refine .of_ports _ (fun q => ?_)
  show PortKept _ ((s.updPort p f).port q)
  rw [port_updPort]
  split
  · next e => subst e; exact hf _
  · exact .refl _

theorem within_offerAll : Within s (offerAll s) := by
  rw [offerAll_eq]
  refine .trans (.of_ports (s.ports.map (offered s.messages.posted)) (fun p => ?_)) (.of_bounds rfl)
  rw [Table.get_map]
  exact .offered _ _

theorem within_offerOldest : Within s (offerOldest s) := by
  unfold offerOldest
  split
  · exact .refl s
  · next e rest _ =>
    refine .trans (t := s.updMessages (fun m => { m with posted := rest })) (.of_bounds rfl) (.of_ports _ (fun p => ?_))
    rw [Table.get_map]
    exact .offered [e] _

theorem bump_le (n : Nat) : bump n ≤ Config.counterMax := by
  unfold bump
  split <;> omega

theorem PortKept.discardFrame (pt : Port) : PortKept pt (discardFrame pt) :=
  ⟨fun hb => { hb with errors := bump_le _ }, rfl⟩

theorem within_countFrameError {p : Console} : Within s (countFrameError p s) :=
  within_updPort _ (fun _ => ⟨fun hb => { hb with errors := bump_le _ }, rfl⟩)

theorem within_setFilter (p : Console) (filter : Byte) (s : State) : Within s (setFilter p filter s).1 := by
  unfold setFilter
  split
  · exact .refl s
  · next h => exact within_updPort _ (fun _ => ⟨fun hb => { hb with filter := Nat.not_lt.1 h }, rfl⟩)

theorem within_poll (p : Console) (s : State) : Within s (poll p s).1 :=
  within_updPort _ (fun _ => ⟨fun hb => { hb with }, rfl⟩)

theorem within_fetch (p : Console) (s : State) : Within s (fetch p s).1 :=
  within_updPort _ (fun _ => ⟨fun hb => { hb with
    events := (List.drop_sublist _ _).length_le.trans hb.events }, rfl⟩)

theorem within_frameTimeout (p : Console) (s : State) : Within s (s.updPort p timeoutFrame) :=
  within_updPort _ (fun _ => by
    unfold timeoutFrame
    split
    · exact .refl _
    all_goals exact .discardFrame _)

/-- A byte changes the receiver and the frames it has completed, and may count a discarded frame. -/
theorem PortKept.receiveByte (b : Byte) (fault : Bool) (pt : Port) : PortKept pt (receiveByte b fault pt) := by
  have receives (r : Receiver) (c : List ConsoleFrame) : PortKept pt { pt with receiver := r, complete := c } :=
    ⟨fun hb => { hb with }, rfl⟩
  unfold Machine.receiveByte
  split
  · unfold huntByte
    split
    · exact receives _ _
    · exact .refl pt
  · split
    · exact .discardFrame pt
    · unfold headerByte
      split
      · split
        · exact .discardFrame pt
        · exact receives _ _
      · exact receives _ _
      · exact receives _ _
  · split
    · exact .discardFrame pt
    · exact receives _ _
  · split
    · exact .discardFrame pt
    · unfold checkByte
      split
      · exact receives _ _
      · exact receives _ _

/-! ### Memory, load and MASTER CLEAR (R183, R188, R190) -/

theorem within_completeSave (bad : List (Nat × Byte)) (s : State) : Within s (completeSave bad s) := by
  have hsaved (m : Memory) (hm : Memory.wf s.memory = true → Memory.wf m = true) (x : Loader) (e : EventBody) :
      Within s (({ s with memory := m, loader := x } : State).emit e) :=
    ⟨id, fun _ => .refl _, hm, fun h => h⟩
  unfold completeSave
  split
  · exact .refl s
  · dsimp only
    split <;> exact hsaved _ (fun h => Memory.wf_writeAll _ (Memory.wf_writeAll _ h)) _ _

theorem within_completeLoad (found : List (Nat × Byte)) (s : State) : Within s (completeLoad found s) := by
  unfold completeLoad
  split
  · refine .trans ?_ within_offerAll
    exact ⟨id, fun _ => .refl _, fun h => Memory.wf_writeAll _ h, fun h => h⟩
  · exact .refl s

theorem StoreLawful.reset {s : State} (h : s.cues = CueStore.reset) : StoreLawful s := by
  simpa only [StoreLawful, h, show State.reset.cues = CueStore.reset from rfl] using storeLawful_reset

theorem within_masterCleared (hn : ∀ l, (s.lane l).state.refusesMaster = false) : Within s (masterCleared s) where
  store _ := .reset rfl
  ports p := by
    rw [show (masterCleared s).port p = clearedPort (s.port p) from Table.get_map _ _ _]
    exact ⟨fun hb => { hb with events := Nat.zero_le _ }, rfl⟩
  memory := id
  planner h := by
    obtain ⟨hqueue, hjob⟩ := takeWithdrawals_clears h (fun l e => by simpa [e, LaneState.refusesMaster] using hn l)
    refine plannerSound_iff.2 ⟨⟨?_, fun j hj hw => ?_⟩, fun l hl => ?_⟩
    · rw [show (masterCleared s).planner = takeWithdrawals s.planner from rfl, hqueue]
      exact List.nodup_nil
    · simp [hjob j hj] at hw
    · obtain hl | ⟨j, hj, hw, -⟩ := hl
      · rw [show (masterCleared s).planner = takeWithdrawals s.planner from rfl, hqueue] at hl
        cases hl
      · simp [hjob j hj] at hw

theorem within_masterClear : Within s (masterClear s).1 :=
  masterClear_keeps (P := Within s) (.refl s) within_masterCleared

end Sys2Proof.Machine

namespace Sys2Proof.Machine

variable {s t u : State} {l k : LaneId} {a b : AxisId}

/-! ### Every step keeps the bounds -/

/-- Each of the bounds is kept. -/
structure BoundsKept (s t : State) : Prop where
  store : StoreLawful s → StoreLawful t
  ports : (∀ p, (s.port p).Bounded) → ∀ p, (t.port p).Bounded
  memory : Memory.wf s.memory = true → Memory.wf t.memory = true
  planner : PlannerSound s → PlannerSound t

theorem Within.kept (h : Within s t) : BoundsKept s t :=
  ⟨h.store, fun e p => (h.ports p).1 (e p), h.memory, h.planner⟩

theorem BoundsKept.trans (h : BoundsKept s t) (h' : BoundsKept t u) : BoundsKept s u :=
  ⟨fun e => h'.store (h.store e), fun e => h'.ports (h.ports e), fun e => h'.memory (h.memory e),
    fun e => h'.planner (h.planner e)⟩

/-- One port's record changes, within its bounds when every port is within them. -/
theorem boundsKept_updPort {p : Console} (f : Port → Port) (hf : (s.port p).Bounded → (f (s.port p)).Bounded) :
    BoundsKept s (s.updPort p f) where
  store := id
  memory := id
  planner h := h
  ports h q := by
    rw [port_updPort]
    split
    · next e => subst e; exact hf (h p)
    · exact h q

theorem boundsKept_replySent (p : Console) (s : State) : BoundsKept s (s.updPort p sendReply) := by
  refine boundsKept_updPort _ (fun h => ?_)
  unfold sendReply
  split
  · exact h
  · next r rest hqueue =>
    have hle : rest.length ≤ (s.port p).transmit.length := by rw [hqueue]; exact Nat.le_succ _
    exact { h with transmit := hle.trans h.transmit, owed := fun e => hle.trans (h.owed e) }

/-- A reply has room while fewer than three wait (R172, R174). -/
theorem boundsKept_queueReply {p : Console} (r : PortReply) (h : (s.port p).transmit.length < Config.overrunDepth) :
    BoundsKept s (queueReply p r s) := by
  have hroom : ((s.port p).transmit ++ [r]).length ≤ 3 := by
    rw [List.length_append]
    exact h
  exact boundsKept_updPort _ (fun hb => { hb with transmit := hroom.trans (by decide), owed := fun _ => hroom })

/-- A frame that is no overrun finds room for its reply (R172). -/
theorem admissionOf_room {p : Console} {parsed : Parsed} {adm : Admission} (e : admissionOf s p parsed = adm)
    (h : adm ≠ .overrun) : (s.port p).transmit.length < Config.overrunDepth := by
  unfold admissionOf at e
  split at e
  · exact absurd e.symm h
  · next hroom => exact Nat.not_le.1 hroom

/-- The owning block's own change, its events offered, then the reply for which its port has kept room (R173, R174). -/
theorem boundsKept_finish {p : Console} {tag kind : Byte} {act : State → State × Answer} (hact : Within s (act s).1)
    (hroom : (s.port p).Bounded → (s.port p).transmit.length ≤ 3) : BoundsKept s (finish p tag kind act s) := by
  have hoffered : Within s (offerNew s.messages.posted.length (act s).1) := by
    unfold offerNew
    split
    · exact hact
    · exact hact.trans within_offerAll
  set v := offerNew s.messages.posted.length (act s).1 with hv
  have hfinish : finish p tag kind act s = v.updPort p (fun pt => { pt with
      inProgress := none, transmit := pt.transmit ++ [⟨kind, tag, (act s).2.code, (act s).2.data⟩] }) := by
    simp only [finish, queueReply, State.updPort, Table.modify_modify, ← hv]
  rw [hfinish]
  exact {
    store := hoffered.store
    memory := hoffered.memory
    planner := hoffered.planner
    ports := fun h q => by
      rw [port_updPort]
      split
      · next e =>
        subst e
        obtain ⟨hkept, htransmit⟩ := hoffered.ports p
        refine { hkept (h p) with transmit := ?_, owed := fun e => absurd rfl e }
        rw [List.length_append, htransmit]
        exact Nat.succ_le_succ (hroom (h p))
      · exact (hoffered.ports q).1 (h q) }

theorem boundsKept_serve {p : Console} {tag kind : Byte} {self : Instr} {act : State → State × Answer}
    (hact : Within s (act s).1) : BoundsKept s (serve p tag kind self act s) := by
  unfold serve
  split
  · next hself => exact boundsKept_finish hact (fun hb => hb.owed (by simp [hself]))
  · split
    · exact within_countFrameError.kept
    · next e => exact boundsKept_queueReply _ (admissionOf_room e (by simp))
    · next e => exact boundsKept_finish hact (fun _ => (admissionOf_room e (by simp)).le)

theorem boundsKept_judgeFrame (p : Console) (s : State) : BoundsKept s (judgeFrame p s) := by
  have hadmit (f : ConsoleFrame) (v : State) : BoundsKept v (admitFrame p f v) := by
    unfold admitFrame
    split
    · exact within_countFrameError.kept
    · next e => exact boundsKept_queueReply _ (admissionOf_room e (by simp))
    · next e =>
      exact boundsKept_updPort _ (fun hb => { hb with owed := fun _ => (admissionOf_room e (by simp)).le })
  unfold judgeFrame
  split
  · exact (Within.refl s).kept
  · next f rest _ =>
    have htaken : BoundsKept s (s.updPort p (fun pt => { pt with complete := rest })) :=
      boundsKept_updPort _ (fun hb => { hb with })
    dsimp only
    split
    · exact htaken.trans (hadmit _ _)
    · exact htaken.trans within_countFrameError.kept

/-- A pin reset keeps the memory, with the writes a save had made, and resets the rest (R185, R191). -/
theorem boundsKept_pinReset (written : Nat) (s : State) : BoundsKept s (pinReset written s) where
  store _ := .reset rfl
  ports _ p := portsBounded_iff.1 portsBounded_reset p
  memory h := by
    show Memory.wf (resetMemory written s) = true
    unfold resetMemory
    split
    · exact h
    · exact Memory.wf_writeAll _ h
  planner _ := plannerSound_reset.kept rfl (fun _ => ⟨rfl, rfl⟩)

theorem bounds_beginPeriod (s : State) : bounds (beginPeriod s) = bounds s :=
  bounds_lanes (s := s) (fun _ ln => { ln with followDue := followDueAt ln }) (fun _ _ => rfl)

theorem bounds_takeFaultRequest (cause : FaultCause) (s : State) : bounds (takeFaultRequest a cause s) = bounds s := by
  unfold takeFaultRequest
  split
  · exact bounds_applyFault (s := s.updMessages _) cause
  · rfl

/-- Every command keeps the bounds. -/
theorem exec_keeps_bounds {i : Instr} (e : exec i s = .next t) : BoundsKept s t := by
  have same {t : State} (e : bounds t = bounds s) : BoundsKept s t := (Within.of_bounds e).kept
  have quiet {t : State} (e : bounds t = bounds s) : Within s t := .of_bounds e
  cases i with
  | pinReset written => cases e; exact boundsKept_pinReset written s
  | imageLoadCompletion found => cases e; exact (within_completeLoad found s).kept
  | saveCompletion bad => cases e; exact (within_completeSave bad s).kept
  | periodStart => cases e; exact same (bounds_beginPeriod s)
  | motionGeneratorWork l => cases e; exact same (bounds_generatorWork l s)
  | stopTrajectoryStep a => cases e; exact (within_stopStep a s).kept
  | arrival => cases e; exact same (bounds_ite rfl rfl)
  | stepCompletion l => cases e; exact (within_completeStep l s).kept
  | followExpiry l => cases e; exact (within_followCount l s).kept
  | linkedDecrement l => cases e; exact (within_linkedCount l s).kept
  | releaseTimeout l => cases e; exact (within_expireRelease l s).kept
  | releaseEnd l => cases e; exact (within_endRelease l s).kept
  | trackingMark => cases e; exact same bounds_takeMark
  | planCompletion => cases e; exact within_completePlan.kept
  | planWithdrawal => cases e; exact within_planWithdrawal.kept
  | planResult l => cases e; exact (within_takeResult l s).kept
  | faultRequest a cause => cases e; exact same (bounds_takeFaultRequest cause s)
  | faultNotice l a =>
    cases e; exact (Within.of_ite (within_takeDelivery _ _ (within_faultNotice l a)) (.refl s)).kept
  | interlockTrip l n => cases e; exact (within_takeDelivery _ _ (within_interlockTrip l n)).kept
  | emergency l => cases e; exact (within_takeDelivery _ _ (within_emergencyLane l)).kept
  | enableHalt l c => cases e; exact (within_takeDelivery _ _ (within_enableLoss l c)).kept
  | holdAssertion l n => cases e; exact (within_takeDelivery _ _ (within_holdAssertion l n)).kept
  | rawLevelChange => cases e; exact same rfl
  | qualifiedChange line => cases e; exact same (bounds_qualify line)
  | driveRound => cases e; exact same bounds_driveRound
  | statusFrame latency bytes => cases e; exact same (bounds_statusFrame latency bytes)
  | replyWindowExpiry => cases e; exact same bounds_windowExpiry
  | stationOnlineNotice => cases e; exact same bounds_takeOnlineNotice
  | stationLostNotice => cases e; exact same bounds_takeLostNotice
  | supervisorReplyCheck => cases e; exact same bounds_takeReplyCheck
  | consoleFrame p => cases e; exact boundsKept_judgeFrame p s
  | frameTimeout p => cases e; exact (within_frameTimeout p s).kept
  | replySent p => cases e; exact boundsKept_replySent p s
  | eventPosted => cases e; exact within_offerOldest.kept
  | byteReceived p byte fault => cases e; exact (within_updPort _ (.receiveByte byte fault)).kept
  | take p => cases e; exact boundsKept_serve (onLane_keeps (.refl s) (fun l => quiet (bounds_takeLane p l s)))
  | yield => cases e; exact boundsKept_serve (onOwnLane_keeps (.refl s) (fun l => quiet (bounds_yieldLane l s)))
  | load => cases e; exact boundsKept_serve (onOwnLane_keeps (.refl s) (fun l => within_loadLane _ l s))
  | go p => cases e; exact boundsKept_serve (onOwnLane_keeps (.refl s) (fun l => within_goLane p l s))
  | halt => cases e; exact boundsKept_serve (onLane_keeps (.refl s) (fun _ => within_haltLane _))
  | clearLane => cases e; exact boundsKept_serve (onOwnLane_keeps (.refl s) (fun l => within_clearLane l s))
  | setRate => cases e; exact boundsKept_serve (onOwnLane_keeps (.refl s) (fun _ => quiet (bounds_updLane _)))
  | setRepeat => cases e; exact boundsKept_serve (onOwnLane_keeps (.refl s) (fun _ => quiet (bounds_updLane _)))
  | setHoldLine =>
    cases e; exact boundsKept_serve (onOwnLane_keeps (.refl s) (fun l => quiet (bounds_setHoldLine _ l s)))
  | direct p => cases e; exact boundsKept_serve (onOwnLane_keeps (.refl s) (fun l => within_directLane p _ _ _ l s))
  | getLane => cases e; exact boundsKept_serve (onLane_keeps (.refl s) (fun _ => .refl s))
  | putStep => cases e; exact boundsKept_serve (within_putStep _ _ s)
  | dropStep => cases e; exact boundsKept_serve (within_dropStep _ s)
  | getStep => cases e; exact boundsKept_serve (by rw [getStep_state]; exact .refl s)
  | putAxis =>
    cases e
    exact boundsKept_serve (putAxis_keeps (.refl s) (fun _ _ => quiet rfl)
      (fun _ _ _ _ _ _ => quiet (bounds_configureAxis _)))
  | putAxisRemove => cases e; exact boundsKept_serve (putAxisRemove_keeps (.refl s) (fun _ _ => quiet rfl))
  | getAxis => cases e; exact boundsKept_serve (by rw [getAxis_state]; exact .refl s)
  | lockSet => cases e; exact boundsKept_serve (quiet rfl)
  | clearFault => cases e; exact boundsKept_serve (clearFault_keeps (.refl s) (fun _ _ => quiet bounds_returnToRest))
  | putPair => cases e; exact boundsKept_serve (quiet (bounds_putPair _ _ _ _ s))
  | dropPair => cases e; exact boundsKept_serve (quiet (bounds_dropPair _ s))
  | getStation => cases e; exact boundsKept_serve (quiet (bounds_getStation _ _ s))
  | poll p => cases e; exact boundsKept_serve (within_poll p s)
  | fetch p => cases e; exact boundsKept_serve (within_fetch p s)
  | setFilter p => cases e; exact boundsKept_serve (within_setFilter p _ s)
  | eStop => cases e; exact boundsKept_serve (quiet (bounds_setLatch _))
  | clearEStop p => cases e; exact boundsKept_serve (quiet (bounds_clearEStop p s))
  | masterClear => cases e; exact boundsKept_serve within_masterClear
  | saveImage p => cases e; exact boundsKept_serve (quiet (bounds_saveImage p s))

/-- Settles O59: a change of the stores is within their bounds, a reply finds the room its port kept for it, and the Planner
waits for PLANNING lanes alone. -/
theorem every_step_keeps_the_stores_bounded : Obligations.every_step_keeps_the_stores_bounded := by
  intro s t e
  have hqueue (q : List Instr) (v : State) : BoundsKept v (v.withPending q) :=
    (Within.of_bounds (show bounds (v.withPending q) = bounds v from rfl)).kept
  have h : BoundsKept s t := step_leads (P := BoundsKept s) (fun h => h.trans (hqueue _ _)) id
    (fun h e => h.trans (exec_keeps_bounds e)) (Within.refl s).kept e
  exact ⟨h.store, fun hs => portsBounded_iff.2 (h.ports (portsBounded_iff.1 hs)), h.memory, h.planner⟩

end Sys2Proof.Machine

namespace Sys2Proof.Machine

variable {s t u : State} {l k : LaneId} {a b : AxisId}

/-! ### PUT STEP and DROP STEP (R41 to R47) -/

section
variable {step : Half} {body : RawStep} {n : StepNo} {st : Step}

theorem putStep_badArg (h : 511 < step.toNat ∨ ¬ stepLawful body) : putStep step body s = (s, .refuse .badArg) := by
  unfold putStep
  split
  · next n st hn hst =>
    rcases h with h | h
    · cases (stepOf_none h).symm.trans hn
    · cases (checkStep_none h).symm.trans hst
  · rfl

theorem putStep_inUse (hn : stepOf step = some n) (hst : checkStep body = some st) (h : inUse s n = true) :
    putStep step body s = (s, .refuse .stepInUse) := by
  simp only [putStep, hn, hst, if_pos h]

theorem putStep_poolFull (hn : stepOf step = some n) (hst : checkStep body = some st) (h : inUse s n = false)
    (hfull : s.cues.free + entries (s.cues.slots.get n) < st.moves.length) :
    putStep step body s = (s, .refuse .poolFull) := by
  simp only [putStep, hn, hst, h, Bool.false_eq_true, if_false, if_pos hfull]

theorem putStep_ok (hn : stepOf step = some n) (hst : checkStep body = some st) (h : inUse s n = false)
    (hroom : st.moves.length ≤ s.cues.free + entries (s.cues.slots.get n)) :
    putStep step body s = (setSlot n (some st) s,
      .ok (be16 (setSlot n (some st) s).cues.free ++ [byteOf (clampedCount body.moves)])) := by
  simp only [putStep, hn, hst, h, Bool.false_eq_true, if_false, if_neg (Nat.not_lt.2 hroom)]

theorem dropStep_badArg (h : 511 < step.toNat) : dropStep step s = (s, .refuse .badArg) := by
  simp only [dropStep, stepOf_none h]

theorem dropStep_noStep (hn : stepOf step = some n) (h : s.cues.slots.get n = none) :
    dropStep step s = (s, .refuse .noStep) := by
  simp only [dropStep, hn, h, Option.isNone_none, if_pos]

theorem dropStep_inUse (hn : stepOf step = some n) (hp : (s.cues.slots.get n).isSome = true) (h : inUse s n = true) :
    dropStep step s = (s, .refuse .stepInUse) := by
  have hpresent : ¬ (s.cues.slots.get n).isNone = true := by simpa using Option.isSome_iff_ne_none.1 hp
  simp only [dropStep, hn, if_neg hpresent, if_pos h]

theorem dropStep_ok (hn : stepOf step = some n) (hp : (s.cues.slots.get n).isSome = true) (h : inUse s n = false) :
    dropStep step s = (setSlot n none s, .ok (be16 (setSlot n none s).cues.free)) := by
  have hpresent : ¬ (s.cues.slots.get n).isNone = true := by simpa using Option.isSome_iff_ne_none.1 hp
  simp only [dropStep, hn, if_neg hpresent, h, Bool.false_eq_true, if_false]

/-- The step stored is the request's, field by field (R41, R45). -/
theorem checkStep_fields (h : checkStep body = some st) :
    st.label = body.label.toNat ∧ st.rs = body.rs.toNat ∧ st.tn = body.tn.toNat ∧
      (body.followKind = 0 → st.follow = .manual) ∧
      (body.followKind = 1 → st.follow = .timed body.followA.toNat) ∧
      (∀ k : LaneId, body.followKind = 2 → k.val = body.followA.toNat → st.follow = .linked k body.followB.toNat) ∧
      st.next.map (·.val) = (if body.next = 0xFFFF then none else some body.next.toNat) ∧
      StoredAs body.moves st.moves := by
  obtain ⟨moves, follow, next, hmoves, hfollow, hnext, -, rfl⟩ := checkStep_iff.1 h
  refine ⟨rfl, rfl, rfl, fun e => ?_, fun e => ?_, fun k e hk => ?_, checkNext_val hnext, (checkList_iff.1 hmoves).2⟩
  · exact Option.some.inj (hfollow.symm.trans (checkFollow_manual e))
  · exact Option.some.inj (hfollow.symm.trans (checkFollow_timed e))
  · have hcount : 1 ≤ body.followB.toNat ∧ body.followB.toNat ≤ 15 := by
      rcases checkFollow_isSome.1 ⟨_, hfollow⟩ with h0 | h1 | ⟨-, -, hcount⟩
      · exact absurd (h0.symm.trans e) (by decide)
      · exact absurd (h1.symm.trans e) (by decide)
      · exact hcount
    exact Option.some.inj (hfollow.symm.trans (checkFollow_linked e hk hcount))

end

theorem storedCap_values (b : Byte) :
    (1 ≤ b.toNat ∧ b.toNat ≤ 100 → storedCap b = b.toNat) ∧ (100 < b.toNat → storedCap b = 100) ∧
      (b.toNat = 0 → storedCap b = 1) := by
  unfold storedCap
  refine ⟨fun ⟨hlow, hhigh⟩ => ?_, fun h => ?_, fun h => if_pos h⟩
  · rw [if_neg (by omega), if_neg (by omega)]
  · rw [if_neg (by omega), if_pos h]

/-- Settles O37: the request's checks decide between a refusal and one write of the slot. -/
theorem a_step_is_put_and_dropped : Obligations.a_step_is_put_and_dropped := by
  refine ⟨fun p tag step s => ⟨fun body ht h => serve_refused ht (putStep_badArg h),
    fun ht h => serve_refused ht (dropStep_badArg h)⟩, fun p tag step n s hn => ⟨fun body ht hlawful => ?_, fun ht => ?_⟩,
    storedCap_values⟩
  · obtain ⟨st, hst⟩ := checkStep_some hlawful
    obtain ⟨hlabel, hrs, htn, hmanual, htimed, hlinked, hnext, hmoves⟩ := checkStep_fields hst
    exact ⟨st, hlabel, hrs, htn, hmanual, htimed, hlinked, hnext, hmoves,
      fun h => serve_refused ht (putStep_inUse hn hst h),
      fun h hfull => serve_refused ht (putStep_poolFull hn hst h hfull),
      fun h hroom => serve_ok ht (putStep_ok hn hst h hroom) rfl⟩
  · exact ⟨fun h => serve_refused ht (dropStep_noStep hn h),
      fun hp h => serve_refused ht (dropStep_inUse hn hp h),
      fun hp h => serve_ok ht (dropStep_ok hn hp h) rfl⟩

end Sys2Proof.Machine

namespace Sys2Proof.Machine

variable {s t u : State} {l k : LaneId} {a b : AxisId}

/-- A lane's change of state, with its event when the state is another (R56). -/
theorem changeState_events (st : LaneState) : changeState l st s = emitAll
    (if (s.lane l).state = st then [] else [.laneState l (s.lane l).state st (s.lane l).haltCause])
    (s.updLane l (fun ln => { ln with state := st })) := by
  split
  · next h =>
    have hsame : s.updLane l (fun ln => { ln with state := st }) = s.updLane l id := updLane_congr (by rw [← h]; rfl)
    have hid : s.lanes.modify l id = s.lanes := Table.ext_get (fun k => by
      rw [Table.get_modify]
      split
      · next e => subst e; rfl
      · rfl)
    rw [changeState_same _ _ h, emitAll_nil, hsame, State.updLane, hid]
  · next h => exact changeState_eq _ _ h

/-! ### A GO beside events that wait (R61, R177) -/

/-- A GO that passes its checks, behind events already posted, enters PLANNING with its LANE_STATE event after them. -/
theorem enterPlanning_emitAll {c : Console} (resume : Bool) (es : List EventBody) (hs : (s.lane l).state ≠ .planning)
    (h : firstRefusal s l c = none) : ∃ v u, goChecks l (some c) (emitAll es s) = .ok v ∧
      enterPlanning l resume v = emitAll (es ++ [.laneState l (s.lane l).state .planning .none]) u ∧
      EntersPlanning l resume s u ∧ u.messages = s.messages := by
  obtain ⟨st, hst, hgo⟩ := goChecks_passed (s := emitAll es s) h
  set as := st.moves.map (·.axis) with has
  have hmessages : (claimed l resume as s).messages = s.messages := rfl
  have hclaimed : claimed l resume as (emitAll es s) = emitAll es (claimed l resume as s) := rfl
  refine ⟨_, joinQueue l (claimed l resume as s), hgo, ?_, entersPlanning_claimed resume hst,
    (joinQueue_messages l _).trans hmessages⟩
  rw [enterPlanning_eq resume _ (s := emitAll es s) hs, hclaimed, joinQueue_emitAll, emitAll_emit]
  rfl

/-! ### DIRECT (R49, R64) -/

/-- The lane's own step written and loaded in READY, as one change. -/
def directLoaded (l : LaneId) (st : Step) (s : State) : State :=
  { s with
    cues := { s.cues with privates := s.cues.privates.set l (some st) }
    lanes := s.lanes.modify l (fun ln => { ln with
      state := .ready, base := some .direct, current := some .direct
      repeatRemaining := ln.repeatSetting, seqEnd := false, haltCause := .none }) }

/-- The event of a lane that leaves IDLE for READY (R56). -/
def readyEvents (l : LaneId) (s : State) : List EventBody :=
  if (s.lane l).state = .idle then [.laneState l .idle .ready .none] else []

theorem directLoaded_state (st : Step) : ((directLoaded l st s).lane l).state = .ready := by
  simp [directLoaded, State.lane]

theorem writeDirect_eq (st : Step) (h : (s.lane l).state ∈ [LaneState.idle, .ready]) :
    writeDirect l st s = emitAll (readyEvents l s) (directLoaded l st s) := by
  set v := ({ s with cues := { s.cues with privates := s.cues.privates.set l (some st) } } : State).updLane l
    (fun ln => { ln with
      base := some .direct, current := some .direct, repeatRemaining := ln.repeatSetting, seqEnd := false
      haltCause := .none }) with hv
  have hlane : v.lane l = { s.lane l with
      base := some .direct, current := some .direct, repeatRemaining := (s.lane l).repeatSetting, seqEnd := false
      haltCause := .none } := lane_updLane_same _ _ _
  have hready : v.updLane l (fun ln => { ln with state := .ready }) = directLoaded l st s := by
    rw [hv]
    simp only [State.updLane, Table.modify_modify]
    rfl
  have hloaded : writeDirect l st s = changeState l .ready v := rfl
  rw [hloaded, changeState_events, hready, hlane, readyEvents]
  simp only [List.mem_cons, List.not_mem_nil, or_false] at h
  rcases h with h | h <;> simp [h]

section
variable {p : Console} {rs tn : Half} {ms : List RawMove} {st : Step}

theorem directLane_badArg (h : ¬ (10 ≤ rs.toNat ∧ rs.toNat ≤ 400 ∧ movesLawful 4 ms)) :
    directLane p rs tn ms l s = (s, .refuse .badArg) := by
  simp only [directLane, checkDirect_none h]

theorem directLane_wrongState (hst : checkDirect rs tn ms = some st)
    (h : (s.lane l).state ∈ [LaneState.planning, .releasing, .running, .stopping, .held, .follow]) :
    directLane p rs tn ms l s = (s, .refuse .wrongState) := by
  simp only [List.mem_cons, List.not_mem_nil, or_false] at h
  rcases h with h | h | h | h | h | h <;> simp only [directLane, hst, h]

/-- DIRECT in IDLE or READY is a GO of the lane with its own step written and loaded. -/
theorem directLane_go (hst : checkDirect rs tn ms = some st) (h : (s.lane l).state ∈ [LaneState.idle, .ready]) :
    (∀ v, goChecks l (some p) (writeDirect l st s) = .ok v →
      directLane p rs tn ms l s = (enterPlanning l false v, .ok [byteOf (clampedCount ms)])) ∧
    ∀ r, goChecks l (some p) (writeDirect l st s) = .error r →
      directLane p rs tn ms l s = (writeDirect l st s, ⟨r.code, r.answer.data ++ [byteOf (clampedCount ms)]⟩) := by
  simp only [List.mem_cons, List.not_mem_nil, or_false] at h
  constructor
  · intro v hgo
    rcases h with h | h <;> simp only [directLane, hst, h, hgo]
  · intro r hgo
    rcases h with h | h <;> simp only [directLane, hst, h, hgo] <;> rfl

end

/-- Settles O34: the lane's own step written and loaded as one change, then the GO of that state. -/
theorem direct_writes_loads_and_starts : Obligations.direct_writes_loads_and_starts := by
  intro p tag lane l rs tn moves s hl hc ht
  refine ⟨fun h => serve_refused ht ((onOwnLane_own hl hc).trans (directLane_badArg h)),
    fun hlow hhigh hlawful => ⟨fun hs => ?_, fun hs => ?_⟩⟩
  · obtain ⟨xs, hst, hstored⟩ := checkDirect_some (tn := tn) hlow hhigh hlawful
    set st : Step := ⟨0, rs.toNat, tn.toNat, .manual, none, xs⟩
    obtain ⟨hpassed, hrefused⟩ := directLane_go (p := p) hst hs
    rw [writeDirect_eq st hs] at hpassed hrefused
    refine ⟨st, directLoaded l st s, rfl, hstored, rfl, fun h => ?_, fun r h => ?_⟩
    · obtain ⟨v, u, hgo, hplanning, henters, hmessages⟩ :=
        enterPlanning_emitAll false (readyEvents l s) (by rw [directLoaded_state]; simp) h
      rw [directLoaded_state] at hplanning
      exact ⟨u, serve_posting ht ((onOwnLane_own hl hc).trans (hplanning ▸ hpassed v hgo))
        (congrArg Messages.posted hmessages), henters⟩
    · have hact := (onOwnLane_own hl hc).trans (hrefused r (goChecks_refused h))
      exact congrArg _ ((serve_of_taken ht).trans (finish_eq hact rfl))
  · obtain ⟨xs, hst, -⟩ := checkDirect_some (tn := tn) hlow hhigh hlawful
    exact serve_refused ht ((onOwnLane_own hl hc).trans (directLane_wrongState hst hs))

end Sys2Proof.Machine

namespace Sys2Proof.Machine

variable {s t u : State} {l k : LaneId} {a : AxisId}

/-! ### Closing a step (R74) -/

/-- A plan that clipped a target (R74). -/
def planClipped (plan : Option PlanRecord) : Bool :=
  match plan with
  | some p => p.members.any (·.clipped)
  | none => false

/-- The lane record of a closed step. -/
def closedLane (l : LaneId) (cur : StepRef) (s : State) (ln : Lane) : Lane :=
  { ln with
    claimSet := [], plan := none
    lastCompleted := some ⟨cur, s.period, ln.resume, planClipped (s.lane l).plan⟩ }

/-- A step closed: arrivals settled, axes and context given up, the lane's record, and the completion offered. -/
def stepClosed (l : LaneId) (cur : StepRef) (s : State) : State :=
  { s with
    axes := disowned l (s.axes.mapIdx (fun a ax =>
      if a ∈ (s.lane l).claimSet ∧ ax.state = .moving ∧ ax.arriving = true then
        { ax with state := .rest, arriving := false } else ax))
    contexts := s.contexts.set l none
    lanes := s.lanes.mapIdx (fun k ln =>
      if k = l then closedLane l cur s ln
      else if ln.state = .follow ∧ ln.followKind = some (.linked l) then { ln with decrements := ln.decrements + 1 }
      else ln) }

theorem stepClosed_lane (cur : StepRef) : (stepClosed l cur s).lane l = closedLane l cur s (s.lane l) :=
  (Table.get_mapIdx _ _ _).trans (if_pos rfl)

/-- The events of a closed step. -/
def doneEvents (l : LaneId) (cur : StepRef) (s : State) : List EventBody :=
  [.stepDone l cur (s.lane l).resume (planClipped (s.lane l).plan)]

theorem closeStep_eq {cur : StepRef} (hcur : (s.lane l).current = some cur) :
    closeStep l s = emitAll (doneEvents l cur s) (stepClosed l cur s) := by
  have hlanes : ((s.lanes.modify l (fun ln => { ln with claimSet := [] })).modify l (fun ln => { ln with
      plan := none
      lastCompleted := some ⟨cur, s.period, (s.lane l).resume, planClipped (s.lane l).plan⟩ })).mapIdx (fun m ln =>
      if m ≠ l ∧ ln.state = .follow ∧ ln.followKind = some (.linked l) then
        { ln with decrements := ln.decrements + 1 } else ln) = (stepClosed l cur s).lanes := by
    refine Table.ext_get (fun k => ?_)
    rw [Table.get_mapIdx, Table.modify_modify]
    by_cases hk : k = l
    · subst hk
      rw [if_neg (fun h => h.1 rfl), Table.get_modify_same]
      exact (stepClosed_lane cur).symm
    · rw [Table.get_modify_of_ne _ _ (Ne.symm hk)]
      simp only [stepClosed, Table.get_mapIdx, ne_eq, hk, not_false_eq_true, true_and, if_false]
  unfold closeStep
  dsimp only
  rw [hcur]
  exact congrArg (fun lanes => emitAll (doneEvents l cur s) { stepClosed l cur s with lanes := lanes }) hlanes

/-! ### The next step (R75) -/

section
variable {st : Step} {cur b : StepRef}

theorem resolveNext_direct (hcur : (s.lane l).current = some .direct) : resolveNext s l = .ends false := by
  unfold resolveNext
  simp only [hcur]

theorem resolveNext_next {n : StepNo} (hcur : (s.lane l).current = some cur) (hne : cur ≠ .direct)
    (hst : currentStep s l = some st) (hn : st.next = some n) (hp : (s.cues.slots.get n).isSome = true) :
    resolveNext s l = .goes (.numbered n) (s.lane l).repeatRemaining := by
  cases cur with
  | direct => exact absurd rfl hne
  | numbered m =>
    unfold resolveNext
    simp only [hcur, hst, hn, hp]

theorem resolveNext_base (hcur : (s.lane l).current = some cur) (hne : cur ≠ .direct)
    (hst : currentStep s l = some st) (hn : ∀ n, st.next = some n → s.cues.slots.get n = none)
    (hb : (s.lane l).base = some b) :
    resolveNext s l =
      if (s.lane l).repeatRemaining = Config.endless then .goes b (s.lane l).repeatRemaining
      else if (s.lane l).repeatRemaining = 0 then .ends st.next.isSome
      else .goes b ((s.lane l).repeatRemaining - 1) := by
  cases cur with
  | direct => exact absurd rfl hne
  | numbered m =>
    unfold resolveNext
    cases hnext : st.next with
    | none => simp only [hcur, hst, hnext, hb]
    | some n => simp only [hcur, hst, hnext, hb, hn n hnext, Option.isSome_none]

/-! ### Where a completed step leads (R74 to R76) -/

variable {c : MotionContext}

theorem completeStep_ends {broken : Bool} (hs : (s.lane l).state = .running) (hc : s.context l = some c)
    (hend : c.profileEnd = true) (h : resolveNext s l = .ends broken) :
    completeStep l s = endSequence l broken (closeStep l s) := by
  simp only [completeStep, hs, hc, if_pos hend, h]

theorem completeStep_goes {ref : StepRef} {remaining : Nat} (hs : (s.lane l).state = .running)
    (hc : s.context l = some c) (hend : c.profileEnd = true) (hst : currentStep s l = some st)
    (h : resolveNext s l = .goes ref remaining) :
    completeStep l s = continueSequence l st.follow
      ((closeStep l s).updLane l (fun ln => { ln with current := some ref, repeatRemaining := remaining })) := by
  simp only [completeStep, hs, hc, if_pos hend, h, hst]

end

theorem updLane_updLane (f g : Lane → Lane) : (s.updLane l f).updLane l g = s.updLane l (fun ln => g (f ln)) := by
  simp only [State.updLane, Table.modify_modify]

theorem emitAll_updLane (es : List EventBody) (f : Lane → Lane) :
    (emitAll es s).updLane l f = emitAll es (s.updLane l f) := rfl

/-- A change of state behind events already posted and a change of the lane's record. -/
theorem changeState_behind (es : List EventBody) (f : Lane → Lane) {st : LaneState} (h : (f (s.lane l)).state ≠ st) :
    changeState l st (emitAll es (s.updLane l f)) =
      emitAll (es ++ [.laneState l (f (s.lane l)).state st (f (s.lane l)).haltCause])
        (s.updLane l (fun ln => { f ln with state := st })) := by
  have hlane : (emitAll es (s.updLane l f)).lane l = f (s.lane l) := lane_updLane_same _ _ _
  rw [changeState_eq _ _ (hlane ▸ h), hlane, emitAll_updLane, updLane_updLane, emitAll_emitAll]

theorem endSequence_eq (es : List EventBody) (broken : Bool) (hs : (s.lane l).state = .running) :
    endSequence l broken (emitAll es s) =
      emitAll (es ++ [.seqEnd l (s.lane l).base broken, .laneState l .running .idle (s.lane l).haltCause])
        (s.updLane l (fun ln => { ln with state := .idle, seqEnd := true, holdLatch := false })) := by
  have hended : endSequence l broken (emitAll es s) = changeState l .idle
      (emitAll (es ++ [.seqEnd l (s.lane l).base broken])
        (s.updLane l (fun ln => { ln with seqEnd := true, holdLatch := false }))) := by
    rw [← emitAll_emit]
    rfl
  rw [hended, changeState_behind _ _ (by simp [hs]), hs, List.append_assoc]
  rfl

theorem continueSequence_hold (es : List EventBody) (mode : FollowMode) (hs : (s.lane l).state = .running)
    (hhold : (s.lane l).holdLatch = true) :
    continueSequence l mode (emitAll es s) = emitAll (es ++ [.laneState l .running .ready (s.lane l).haltCause])
      (s.updLane l (fun ln => { ln with state := .ready, holdLatch := false })) := by
  have hready : continueSequence l mode (emitAll es s) =
      changeState l .ready (emitAll es (s.updLane l (fun ln => { ln with holdLatch := false }))) := if_pos hhold
  rw [hready, changeState_behind _ _ (by simp [hs]), hs]

theorem continueSequence_ready (es : List EventBody) {mode : FollowMode} (hs : (s.lane l).state = .running)
    (hhold : (s.lane l).holdLatch = false) (hmode : mode = .manual ∨ ∃ n, mode = .linked l n) :
    continueSequence l mode (emitAll es s) = emitAll (es ++ [.laneState l .running .ready (s.lane l).haltCause])
      (s.updLane l (fun ln => { ln with state := .ready })) := by
  have hready : continueSequence l mode (emitAll es s) = changeState l .ready (emitAll es s) := by
    have hfree : ((emitAll es s).lane l).holdLatch = false := hhold
    unfold continueSequence
    rw [hfree, if_neg Bool.false_ne_true]
    rcases hmode with rfl | ⟨n, rfl⟩
    · rfl
    · exact if_pos rfl
  have hrunning : ((emitAll es s).lane l).state = .running := hs
  rw [hready, changeState_eq _ _ (by simp [hrunning]), hrunning, emitAll_updLane, emitAll_emitAll]
  rfl

/-- The record of a lane that enters FOLLOW with a kind and a count (R76). -/
def followLane (kind : FollowKind) (count : Nat) (ln : Lane) : Lane :=
  { ln with state := .follow, followCounter := count, followKind := some kind, followDue := false, decrements := 0 }

/-- A lane that has entered FOLLOW from RUNNING, its event behind those posted before. -/
def followEntered (l : LaneId) (kind : FollowKind) (count : Nat) (es : List EventBody) (s : State) : State :=
  emitAll (es ++ [.laneState l .running .follow (s.lane l).haltCause]) (s.updLane l (followLane kind count))

theorem followEntered_lane (kind : FollowKind) (count : Nat) (es : List EventBody) :
    (followEntered l kind count es s).lane l = followLane kind count (s.lane l) := lane_updLane_same _ _ _

theorem enterFollow_eq (kind : FollowKind) (count : Nat) (es : List EventBody) (hs : (s.lane l).state = .running) :
    enterFollow l kind count (emitAll es s) =
      if count = 0 ∧ kind = .timed then automaticGo l (followEntered l kind count es s)
      else followEntered l kind count es s := by
  have hentered : changeState l .follow (emitAll es (s.updLane l (fun ln => { ln with
      followCounter := count, followKind := some kind, followDue := false, decrements := 0 }))) =
        followEntered l kind count es s := by
    rw [changeState_behind _ _ (by simp [hs]), hs]
    rfl
  rw [← hentered]
  rfl

theorem continueSequence_follow (es : List EventBody) {mode : FollowMode} {kind : FollowKind} {n : Nat}
    (hs : (s.lane l).state = .running) (hhold : (s.lane l).holdLatch = false)
    (hmode : (mode = .timed n ∧ n ≠ 0 ∧ kind = .timed) ∨ ∃ m, m ≠ l ∧ mode = .linked m n ∧ kind = .linked m) :
    continueSequence l mode (emitAll es s) = followEntered l kind n es s := by
  have hfree : ((emitAll es s).lane l).holdLatch = false := hhold
  unfold continueSequence
  rw [hfree, if_neg Bool.false_ne_true]
  rcases hmode with ⟨rfl, hn, rfl⟩ | ⟨m, hm, rfl, rfl⟩
  · exact (enterFollow_eq _ _ _ hs).trans (if_neg (fun h => hn h.1))
  · exact (if_neg hm).trans ((enterFollow_eq _ _ _ hs).trans (if_neg (fun h => nomatch h.2)))

theorem continueSequence_timed_zero (es : List EventBody) (hs : (s.lane l).state = .running)
    (hhold : (s.lane l).holdLatch = false) :
    continueSequence l (.timed 0) (emitAll es s) = automaticGo l (followEntered l .timed 0 es s) := by
  have hfree : ((emitAll es s).lane l).holdLatch = false := hhold
  unfold continueSequence
  rw [hfree, if_neg Bool.false_ne_true]
  exact (enterFollow_eq _ _ _ hs).trans (if_pos ⟨rfl, rfl⟩)

/-! ### The automatic GO (R63) -/

section
variable {c : Console}

theorem automaticGo_passed (hs : (s.lane l).state = .follow) (hc : (s.lane l).controller = some c)
    (h : firstRefusal s l c = none) :
    ∃ u, automaticGo l s = u.emit (.laneState l .follow .planning .none) ∧ EntersPlanning l false s u := by
  obtain ⟨v, u, hgo, hplanning, henters, -⟩ := enterPlanning_emitAll false [] (by rw [hs]; simp) h
  rw [emitAll_nil] at hgo
  refine ⟨u, ?_, henters⟩
  simp only [automaticGo, hc, hgo, hplanning, hs]
  rfl

/-- A refused automatic GO ends the wait in READY, with GO_REFUSED behind the LANE_STATE. -/
theorem automaticGo_refused {r : Refused} (hs : (s.lane l).state = .follow) (hc : (s.lane l).controller = some c)
    (h : firstRefusal s l c = some r) : automaticGo l s = emitAll
      [.laneState l .follow .ready (s.lane l).haltCause, .goRefused l r.code r.axis r.lane]
      (s.updLane l (fun ln => { ln with state := .ready, followDue := false, decrements := 0 })) := by
  have hended : endFollow l s = emitAll [.laneState l .follow .ready (s.lane l).haltCause]
      (s.updLane l (fun ln => { ln with state := .ready, followDue := false, decrements := 0 })) := by
    have hready := changeState_behind (s := s) (l := l) [] (fun ln => { ln with followDue := false, decrements := 0 })
      (st := .ready) (by simp [hs])
    rw [emitAll_nil] at hready
    exact hs ▸ hready
  simp only [automaticGo, hc, goChecks_refused h, hended, emitAll_emit]
  rfl

end

/-! ### Step completion -/

/-- The lane of a closed step, going on with its next step (R75). -/
def stepResolved (l : LaneId) (cur ref : StepRef) (remaining : Nat) (s : State) : State :=
  (stepClosed l cur s).updLane l (fun ln => { ln with current := some ref, repeatRemaining := remaining })

theorem stepResolved_lane (cur ref : StepRef) (remaining : Nat) : (stepResolved l cur ref remaining s).lane l =
    { closedLane l cur s (s.lane l) with current := some ref, repeatRemaining := remaining } := by
  rw [stepResolved, lane_updLane_same, stepClosed_lane]

/-- Where a step goes on to is what R75 says of its next and of the repeat count. -/
theorem resolveNext_goes {st : Step} {cur b ref : StepRef} {remaining : Nat} (hcur : (s.lane l).current = some cur)
    (hne : cur ≠ .direct) (hst : currentStep s l = some st) (hb : (s.lane l).base = some b)
    (h : (∃ n, st.next = some n ∧ (s.cues.slots.get n).isSome = true ∧ ref = .numbered n ∧
        remaining = (s.lane l).repeatRemaining) ∨
      ((∀ n, st.next = some n → s.cues.slots.get n = none) ∧ (s.lane l).repeatRemaining ≠ 0 ∧ ref = b ∧
        remaining = if (s.lane l).repeatRemaining = 255 then 255 else (s.lane l).repeatRemaining - 1)) :
    resolveNext s l = .goes ref remaining := by
  rcases h with ⟨n, hn, hp, rfl, rfl⟩ | ⟨hn, hrepeat, rfl, rfl⟩
  · exact resolveNext_next hcur hne hst hn hp
  · rw [resolveNext_base hcur hne hst hn hb, show Config.endless = 255 from rfl]
    by_cases hendless : (s.lane l).repeatRemaining = 255
    · rw [if_pos hendless, if_pos hendless, hendless]
    · rw [if_neg hendless, if_neg hrepeat, if_neg hendless]

theorem resolveNext_ends {st : Step} {cur b : StepRef} (hcur : (s.lane l).current = some cur)
    (hst : currentStep s l = some st) (hb : (s.lane l).base = some b)
    (h : cur = .direct ∨ ((∀ n, st.next = some n → s.cues.slots.get n = none) ∧ (s.lane l).repeatRemaining = 0)) :
    resolveNext s l = .ends (decide (cur ≠ .direct) && st.next.isSome) := by
  by_cases hdirect : cur = .direct
  · subst hdirect
    exact resolveNext_direct hcur
  · obtain ⟨hn, hrepeat⟩ := h.resolve_left hdirect
    rw [resolveNext_base hcur hdirect hst hn hb, hrepeat]
    simp [hdirect, Config.endless]

/-- Settles O21: the step closed as one change, then the branch that R75 and R76 choose. -/
theorem a_completed_step_is_closed_and_resolved : Obligations.a_completed_step_is_closed_and_resolved := by
  intro l s c st cur b hs hc hend hcur hst hb
  refine ⟨stepClosed l cur s, planClipped (s.lane l).plan, _, fun x => .laneState l .running x (s.lane l).haltCause,
    rfl, rfl, fun _ => rfl, rfl, fun h => ?_, fun ref remaining v hne hnext hv => ?_⟩
  · have hends := completeStep_ends hs hc hend (resolveNext_ends hcur hst hb h)
    have hrunning : ((stepClosed l cur s).lane l).state = .running := by rw [stepClosed_lane]; exact hs
    rw [closeStep_eq hcur, endSequence_eq _ _ hrunning, stepClosed_lane] at hends
    refine congrArg Host.Outcome.next (hends.trans ?_)
    rw [closedLane, hb]
    rfl
  · obtain rfl : v = stepResolved l cur ref remaining s := hv
    have hgoes : completeStep l s = continueSequence l st.follow
        (emitAll (doneEvents l cur s) (stepResolved l cur ref remaining s)) := by
      rw [completeStep_goes hs hc hend hst (resolveNext_goes hcur hne hst hb hnext), closeStep_eq hcur]
      rfl
    have hlane := stepResolved_lane (l := l) (s := s) cur ref remaining
    have hrunning : ((stepResolved l cur ref remaining s).lane l).state = .running := by rw [hlane]; exact hs
    have hhalt : ((stepResolved l cur ref remaining s).lane l).haltCause = (s.lane l).haltCause := by rw [hlane]; rfl
    have hlatch : ((stepResolved l cur ref remaining s).lane l).holdLatch = (s.lane l).holdLatch := by rw [hlane]; rfl
    refine ⟨fun hhold => ?_, fun hhold hmode => ?_, fun n kind hhold hmode => ?_, fun k x hhold hmode hk hx => ?_⟩
    · refine congrArg Host.Outcome.next (hgoes.trans ?_)
      rw [continueSequence_hold _ _ hrunning (hlatch.trans hhold), hhalt]
      rfl
    · refine congrArg Host.Outcome.next (hgoes.trans ?_)
      rw [continueSequence_ready _ hrunning (hlatch.trans hhold) hmode, hhalt]
      rfl
    · refine congrArg Host.Outcome.next (hgoes.trans ?_)
      rw [continueSequence_follow _ hrunning (hlatch.trans hhold) hmode, followEntered, hhalt]
      rfl
    · rw [hmode, continueSequence_timed_zero _ hrunning (hlatch.trans hhold)] at hgoes
      obtain rfl : x = followEntered l .timed 0 (doneEvents l cur s) (stepResolved l cur ref remaining s) := by
        rw [hx, followEntered, hhalt]
        rfl
      have hfollow := followEntered_lane (l := l) (s := stepResolved l cur ref remaining s) .timed 0 (doneEvents l cur s)
      rw [hlane] at hfollow
      have hcontroller : ((followEntered l .timed 0 (doneEvents l cur s) (stepResolved l cur ref remaining s)).lane
          l).controller = some k := by rw [hfollow]; exact hk
      refine ⟨fun h => ?_, fun r h => ?_⟩
      · obtain ⟨u, hgo, henters⟩ := automaticGo_passed (by rw [hfollow]; rfl) hcontroller h
        exact ⟨u, congrArg Host.Outcome.next (hgoes.trans hgo), henters⟩
      · refine congrArg Host.Outcome.next ((hgoes.trans (automaticGo_refused (by rw [hfollow]; rfl) hcontroller h)).trans ?_)
        rw [hfollow]
        exact congrArg _ (updLane_congr (by rw [hfollow]; rfl))

end Sys2Proof.Machine


namespace Sys2Proof.Machine

-- Declarations are elaborated one at a time: the threads of the whole text would pass the limit of the check.
set_option Elab.async false

variable {s t u : State} {l k : LaneId} {a b : AxisId}

/-! ### Halts that reach a lane (R57, R126) -/

/-- The states in which an emergency finds a lane to brake: the motion states and STOPPING (R126). -/
def LaneState.braked (st : LaneState) : Prop := st.motion = true ∨ st = .stopping

/-- A change of a lane record that begins no motion and loses no halt which the lane has still to take: the emergency while
it can be braked, the loss of its controller's ENABLE while it is in motion. -/
structure LaneHaltsKept (x y : Lane) : Prop where
  braked : y.state.braked → x.state.braked ∧ (LaneMessage.emergency ∈ x.inbox → LaneMessage.emergency ∈ y.inbox)
  motion : y.state.motion = true → x.state.motion = true ∧ y.controller = x.controller ∧
    ∀ c, x.controller = some c → LaneMessage.enableLoss c ∈ x.inbox → LaneMessage.enableLoss c ∈ y.inbox

theorem LaneHaltsKept.trans {x y z : Lane} (h : LaneHaltsKept x y) (h' : LaneHaltsKept y z) : LaneHaltsKept x z where
  braked hz := by
    obtain ⟨hy, hin'⟩ := h'.braked hz
    obtain ⟨hx, hin⟩ := h.braked hy
    exact ⟨hx, hin' ∘ hin⟩
  motion hz := by
    obtain ⟨hy, hc', hin'⟩ := h'.motion hz
    obtain ⟨hx, hc, hin⟩ := h.motion hy
    exact ⟨hx, hc'.trans hc, fun c e hm => hin' c (hc.trans e) (hin c e hm)⟩

/-- A lane that ends outside the motion states and STOPPING has no halt to take. -/
theorem LaneHaltsKept.of_rest {x y : Lane} (h : ¬ y.state.braked) : LaneHaltsKept x y where
  braked hy := absurd hy h
  motion hy := absurd (.inl hy) h

/-- A change of other fields, and messages delivered. -/
theorem LaneHaltsKept.of_fields {x y : Lane} (hs : y.state.braked → x.state.braked)
    (hm : y.state.motion = true → x.state.motion = true) (hc : y.controller = x.controller) (hi : x.inbox ⊆ y.inbox) :
    LaneHaltsKept x y :=
  ⟨fun hy => ⟨hs hy, fun h => hi h⟩, fun hy => ⟨hm hy, hc, fun _ _ h => hi h⟩⟩

/-- The same state and controller, and no message gone. -/
def LaneGains (x y : Lane) : Prop := y.state = x.state ∧ y.controller = x.controller ∧ x.inbox ⊆ y.inbox

theorem LaneGains.halts {x y : Lane} (h : LaneGains x y) : LaneHaltsKept x y := by
  obtain ⟨hs, hc, hi⟩ := h
  exact .of_fields (hs ▸ id) (hs ▸ id) hc hi

theorem LaneHaltsKept.refl (x : Lane) : LaneHaltsKept x x := LaneGains.halts ⟨rfl, rfl, List.Subset.refl _⟩

/-- No lane's halts are lost, with the latch and the lines as they were. -/
structure HaltsKept (s t : State) : Prop where
  latch : t.latch = s.latch
  lines : t.lines = s.lines
  lane : ∀ k, LaneHaltsKept (s.lane k) (t.lane k)

theorem HaltsKept.trans (h : HaltsKept s t) (h' : HaltsKept t u) : HaltsKept s u :=
  ⟨h'.latch.trans h.latch, h'.lines.trans h.lines, fun k => (h.lane k).trans (h'.lane k)⟩

theorem HaltsKept.reach (h : HaltsKept s t) (hs : StopsReachLanes s) : StopsReachLanes t := by
  intro k
  obtain ⟨hlatch, hlines, hlane⟩ := h
  obtain ⟨hem, hen⟩ := hs k
  have henabled (c : Console) : t.enabled c = s.enabled c := by
    simp only [State.enabled, State.qualified, hlines]
  refine ⟨fun hb => ?_, fun hm => ?_⟩
  · obtain ⟨hx, hin⟩ := (hlane k).braked hb
    rw [hlatch]
    exact (hem hx).imp_right hin
  · obtain ⟨hx, hc, hin⟩ := (hlane k).motion hm
    obtain ⟨c, hcs, hen⟩ := hen hx
    exact ⟨c, hc.trans hcs, hen.imp (henabled c).trans (hin c hcs)⟩

/-- A change outside the latch, the lines and the lanes. -/
theorem HaltsKept.of_same (hlatch : t.latch = s.latch) (hlines : t.lines = s.lines) (hlanes : t.lanes = s.lanes) :
    HaltsKept s t :=
  ⟨hlatch, hlines, fun k => by simp only [State.lane, hlanes]; exact .refl _⟩

theorem HaltsKept.refl (s : State) : HaltsKept s s := .of_same rfl rfl rfl

theorem HaltsKept.ite {p : Prop} [Decidable p] (ht : HaltsKept s t) (hu : HaltsKept s u) :
    HaltsKept s (if p then t else u) := by
  split
  · exact ht
  · exact hu

theorem HaltsKept.foldl {α : Type} (f : State → α → State) (hf : ∀ s x, HaltsKept s (f s x)) (xs : List α) (s : State) :
    HaltsKept s (xs.foldl f s) := by
  induction xs generalizing s with
  | nil => exact .refl s
  | cons x rest ih => exact (hf s x).trans (ih _)

/-! Changes of lane records -/

theorem halts_updLane (f : Lane → Lane) (hf : LaneHaltsKept (s.lane l) (f (s.lane l))) : HaltsKept s (s.updLane l f) := by
  refine ⟨rfl, rfl, fun k => ?_⟩
  rw [lane_updLane]
  split
  · next e => subst e; exact hf
  · exact .refl _

theorem halts_lanes (lanes : Table 8 Lane) (h : ∀ k, LaneGains (s.lane k) (lanes.get k)) :
    HaltsKept s { s with lanes := lanes } :=
  ⟨rfl, rfl, fun k => (h k).halts⟩

theorem halts_deliver (m : LaneMessage) : HaltsKept s (s.deliver l m) :=
  halts_updLane _ (LaneGains.halts ⟨rfl, rfl, List.subset_append_left _ _⟩)

theorem halts_deliverAll (m : LaneMessage) : HaltsKept s (s.deliverAll m) :=
  halts_lanes _ (fun _ => by rw [Table.get_map]; exact ⟨rfl, rfl, List.subset_append_left _ _⟩)

/-! A change behind another that keeps the halts -/

/-- The next change is outside the latch, the lines and the lanes. -/
theorem HaltsKept.same (h : HaltsKept s t) (hlatch : u.latch = t.latch := by rfl) (hlines : u.lines = t.lines := by rfl)
    (hlanes : u.lanes = t.lanes := by rfl) : HaltsKept s u :=
  h.trans (.of_same hlatch hlines hlanes)

/-- The next change is of a lane's record, in what no halt depends on. -/
theorem HaltsKept.fields (h : HaltsKept s t) {f : Lane → Lane}
    (hf : ∀ ln, LaneGains ln (f ln) := by exact fun _ => ⟨rfl, rfl, List.Subset.refl _⟩) : HaltsKept s (t.updLane l f) :=
  h.trans (halts_updLane f (hf _).halts)

theorem HaltsKept.emit (h : HaltsKept s t) {e : EventBody} : HaltsKept s (t.emit e) := h.same

/-- The next change is of a lane's state, to one that can be braked only from such a state, and so for motion. -/
theorem HaltsKept.changeState (h : HaltsKept s t) {st : LaneState} (hb : st.braked → (t.lane l).state.braked)
    (hm : st.motion = true → (t.lane l).state.motion = true) : HaltsKept s (changeState l st t) := by
  unfold Machine.changeState
  dsimp only
  split
  · exact h
  · exact (h.trans (halts_updLane (fun ln => { ln with state := st })
      (.of_fields hb hm rfl (List.Subset.refl _)))).emit

/-- A lane comes to rest. -/
theorem HaltsKept.rests (h : HaltsKept s t) {st : LaneState} (hr : ¬ st.braked) : HaltsKept s (Machine.changeState l st t) :=
  h.changeState (absurd · hr) (fun hm => absurd (.inl hm) hr)

theorem idle_unbraked : ¬ LaneState.idle.braked := by simp [LaneState.braked, LaneState.motion]

theorem ready_unbraked : ¬ LaneState.ready.braked := by simp [LaneState.braked, LaneState.motion]

theorem held_unbraked : ¬ LaneState.held.braked := by simp [LaneState.braked, LaneState.motion]

theorem follow_unbraked : ¬ LaneState.follow.braked := by simp [LaneState.braked, LaneState.motion]

/-- A lane in motion goes on to any state. -/
theorem HaltsKept.goes (h : HaltsKept s t) {st : LaneState} (hm : (t.lane l).state.motion = true) :
    HaltsKept s (Machine.changeState l st t) :=
  h.changeState (fun _ => .inl hm) (fun _ => hm)

theorem HaltsKept.updAxis (h : HaltsKept s t) {f : Axis → Axis} : HaltsKept s (t.updAxis a f) := h.same

theorem HaltsKept.setContext (h : HaltsKept s t) {c : Option MotionContext} : HaltsKept s (t.setContext l c) := h.same

/-! Setpoints and faults -/

theorem HaltsKept.noteWrite (h : HaltsKept s t) {byMotion : Bool} : HaltsKept s (noteWrite byMotion a t) := by
  have htrip (n : PairId) (v : State) : HaltsKept v (sendTrip a n v) := by
    unfold sendTrip
    split
    · exact .refl v
    · refine HaltsKept.trans ?_ (.foldl _ (fun _ _ => halts_deliver _) _ _)
      exact .ite (HaltsKept.refl v).emit (.refl v)
  exact (h.trans (.foldl _ (fun v n => htrip n v) _ t)).same

theorem HaltsKept.seed (h : HaltsKept s t) {f : Nat} : HaltsKept s (seed a f t) := by
  unfold Machine.seed
  split
  · exact h
  · exact h.updAxis.noteWrite

theorem HaltsKept.applyFault (h : HaltsKept s t) {cause : FaultCause} : HaltsKept s (applyFault a cause t) := by
  refine h.trans ?_
  by_cases hfit : (t.axis a).state ∈ [AxisState.rest, .moving, .stopping]
  · rw [applyFault_fit t a cause hfit]
    refine ⟨rfl, rfl, fun k => LaneGains.halts ?_⟩
    simp only [State.lane, emitAll, State.updMessages_lanes, Table.get_mapIdx]
    split
    · exact ⟨rfl, rfl, List.subset_append_left _ _⟩
    · exact ⟨rfl, rfl, List.Subset.refl _⟩
  · rw [applyFault_unfit t a cause hfit]
    exact .refl t

/-! The lines and the latch -/

/-- An emergency that is on its way to every lane leaves the latch free to be set (R123). -/
theorem reach_setLatch (source : Option Console) (h : StopsReachLanes s) : StopsReachLanes (setLatch source s) := by
  unfold setLatch
  split
  · exact h
  · intro k
    rw [lane_deliverAll]
    refine ⟨fun _ => .inr (by simp), fun hm => ?_⟩
    obtain ⟨c, hc, hen⟩ := (h k).2 hm
    exact ⟨c, hc, hen.imp id (fun hin => List.mem_append_left _ hin)⟩

/-- A line other than an ENABLE is no part of the law. -/
theorem enabled_setLine (line : Line) (ls : LineState) (c : Console) : (setLine line ls s).enabled c =
    if line = .enable c then ls.qualified else s.enabled c := by
  have hindex : lineIndex line = lineIndex (.enable c) ↔ line = .enable c := by
    cases line <;> simp [lineIndex, Fin.ext_iff] <;> omega
  simp only [State.enabled, State.qualified, setLine, Table.get_set, hindex]
  split <;> rfl

/-- The law asks of the lines only that an ENABLE which goes inactive is delivered. -/
theorem reach_lines (h : StopsReachLanes s) (hlatch : t.latch = s.latch) (hlanes : ∀ k, LaneGains (s.lane k) (t.lane k))
    (hen : ∀ c, s.enabled c = true → t.enabled c = true ∨ ∀ k, LaneMessage.enableLoss c ∈ (t.lane k).inbox) :
    StopsReachLanes t := by
  intro k
  obtain ⟨hstate, hcontroller, hinbox⟩ := hlanes k
  rw [hlatch, hstate, hcontroller]
  refine ⟨fun hb => ((h k).1 hb).imp_right (fun hin => hinbox hin), fun hm => ?_⟩
  obtain ⟨c, hc, he | hin⟩ := (h k).2 hm
  · exact ⟨c, hc, (hen c he).imp_right (fun hall => hall k)⟩
  · exact ⟨c, hc, .inr (hinbox hin)⟩

theorem reach_qualify (line : Line) (h : StopsReachLanes s) : StopsReachLanes (qualify line s) := by
  unfold qualify
  dsimp only
  split
  swap
  · exact h
  generalize (s.lines.get (lineIndex line)).raw = high
  have hrefl (k : LaneId) : LaneGains (s.lane k) (s.lane k) := ⟨rfl, rfl, List.Subset.refl _⟩
  have hother (hline : high = true ∨ ∀ c, line ≠ .enable c) : StopsReachLanes (setLine line ⟨high, high, false⟩ s) := by
    refine reach_lines h rfl hrefl (fun c he => .inl ?_)
    rw [enabled_setLine]
    split
    · next e => exact hline.resolve_right (fun hn => hn c e)
    · exact he
  unfold deliverChange
  split
  · exact reach_setLatch _ (hother (.inr (by simp)))
  · next c _ =>
    refine reach_lines h rfl (fun k => ?_) (fun c' he => ?_)
    · rw [lane_deliverAll]
      exact ⟨rfl, rfl, List.subset_append_left _ _⟩
    · by_cases hc : c = c'
      · subst hc
        exact .inr (fun k => by rw [lane_deliverAll]; simp)
      · refine .inl ((enabled_setLine (s := s) _ _ c').trans ?_)
        rw [if_neg (by simpa using hc)]
        exact he
  · exact (halts_deliverAll _).reach (hother (.inr (by simp)))
  · exact hother (.inr (by simp))
  · exact hother (.inl rfl)
  · exact hother (.inr (by simp))

theorem reach_rawLevel (line : Line) (high : Bool) (h : StopsReachLanes s) : StopsReachLanes (rawLevel line high s) := by
  refine reach_lines h rfl (fun _ => ⟨rfl, rfl, List.Subset.refl _⟩) (fun c he => .inl ?_)
  refine (enabled_setLine (s := s) _ _ c).trans ?_
  split
  · next e => subst e; exact he
  · exact he

theorem reach_clearEStop (p : Console) (h : StopsReachLanes s) : StopsReachLanes (clearEStop p s).1 := by
  unfold clearEStop
  split
  · exact h
  · split
    · exact fun k => ⟨fun _ => .inl rfl, (h k).2⟩
    · exact h

end Sys2Proof.Machine


namespace Sys2Proof.Machine

-- Declarations are elaborated one at a time: the threads of the whole text would pass the limit of the check.
set_option Elab.async false

variable {s t u : State} {l k : LaneId} {a b : AxisId}

/-! ### Halts through the lanes' own steps (Table 7-2) -/

theorem HaltsKept.recordHalt (h : HaltsKept s t) {cause : HaltCause} : HaltsKept s (recordHalt l cause t) := h.fields

theorem HaltsKept.clearHold (h : HaltsKept s t) : HaltsKept s (clearHold l t) := h.fields

theorem HaltsKept.dropContext (h : HaltsKept s t) : HaltsKept s (dropContext l t) := h.fields.setContext

theorem HaltsKept.release (h : HaltsKept s t) : HaltsKept s (release l t) :=
  (h.fields (l := l) (f := fun ln => { ln with claimSet := [] })).same

theorem HaltsKept.restMembers (h : HaltsKept s t) : HaltsKept s (restMembers l t) := h.same

theorem HaltsKept.endFollow (h : HaltsKept s t) : HaltsKept s (endFollow l t) := h.fields.rests ready_unbraked

theorem HaltsKept.standDown (h : HaltsKept s t) : HaltsKept s (standDown l t) :=
  .ite (h.clearHold.rests held_unbraked) (h.clearHold.fields.release.rests ready_unbraked)

theorem halts_planningHalt (cause : HaltCause) : HaltsKept s (planningHalt l cause s) :=
  (HaltsKept.same (t := recordHalt l cause (s.updLane l (fun ln => { ln with planResult := none })))
    ((HaltsKept.refl s).fields.recordHalt)).standDown

theorem halts_releaseHalt (cause : HaltCause) : HaltsKept s (releaseHalt l cause s) :=
  (HaltsKept.refl s).recordHalt.restMembers.dropContext.standDown

theorem HaltsKept.endTest (h : HaltsKept s t) : HaltsKept s (endTest l t) :=
  .ite (h.fields.dropContext.rests held_unbraked) h

theorem halts_haltMember : HaltsKept s (haltMember l s a) :=
  .ite (.ite (HaltsKept.refl s).same (HaltsKept.refl s).same) (.refl s)

theorem halts_controlledStop (cause : HaltCause) (h : (s.lane l).state = .running) :
    HaltsKept s (controlledStop l cause s) := by
  have hmembers : HaltsKept s (haltedMembers l cause s) :=
    (HaltsKept.recordHalt (HaltsKept.refl s).same).trans (.foldl _ (fun _ _ => halts_haltMember) _ _)
  have hrunning : ((haltedMembers l cause s).lane l).state.motion = true := by
    rw [State.lane, haltedMembers_lanes, Table.get_modify_same]
    exact congrArg LaneState.motion h
  rw [controlledStop_def]
  exact (hmembers.goes hrunning).endTest

theorem halts_haltLane (l : LaneId) (cause : HaltCause) (s : State) : HaltsKept s (haltLane l cause s) := by
  unfold haltLane
  split
  · exact halts_planningHalt _
  · exact halts_releaseHalt _
  · next h => exact halts_controlledStop _ h
  · exact (HaltsKept.refl s).recordHalt.endFollow
  all_goals exact .refl s

/-- A halt leaves the lane outside the motion states. -/
theorem haltLane_rests (l : LaneId) (cause : HaltCause) (s : State) : ((haltLane l cause s).lane l).state.motion = false := by
  unfold haltLane
  split
  · exact (laneRests_planningHalt _).rests
  · exact (laneRests_releaseHalt _).rests
  · exact (laneRests_controlledStop _).rests
  · exact laneRests_endFollow.rests
  all_goals next h => rw [h]; rfl

theorem halts_emergencyHold : HaltsKept s (emergencyHold l s) :=
  (HaltsKept.recordHalt (HaltsKept.refl s).same).dropContext.clearHold.rests held_unbraked

theorem halts_emergencyLane (l : LaneId) (s : State) : HaltsKept s (emergencyLane l s) := by
  unfold emergencyLane
  split
  · exact halts_planningHalt _
  · exact halts_emergencyHold
  · exact halts_emergencyHold
  · exact halts_emergencyHold
  all_goals exact .refl s

theorem standDown_rests : ¬ ((standDown l s).lane l).state.braked := by
  unfold standDown
  dsimp only
  split <;> rw [changeState_state] <;> simp [LaneState.braked, LaneState.motion]

/-- An emergency leaves the lane with nothing to brake. -/
theorem emergencyLane_rests (l : LaneId) (s : State) : ¬ ((emergencyLane l s).lane l).state.braked := by
  have hheld : ¬ ((emergencyHold l s).lane l).state.braked := by
    rw [emergencyHold, changeState_state]
    simp [LaneState.braked, LaneState.motion]
  unfold emergencyLane
  split
  · exact standDown_rests
  · exact hheld
  · exact hheld
  · exact hheld
  all_goals next h => rw [h]; simp [LaneState.braked, LaneState.motion]

theorem halts_faultNotice (l : LaneId) (a : AxisId) (s : State) : HaltsKept s (faultNotice l a s) := by
  unfold faultNotice
  split
  · split
    · exact halts_releaseHalt _
    · next h => exact halts_controlledStop _ h
    · exact (HaltsKept.refl s).endTest
    all_goals exact .refl s
  · exact .refl s

theorem halts_interlockTrip (l : LaneId) (n : PairId) (s : State) : HaltsKept s (interlockTrip l n s) := by
  unfold interlockTrip
  split
  · exact .refl s
  · split
    · next h => exact halts_controlledStop _ h.1
    · exact .refl s

theorem halts_holdAssertion (l : LaneId) (n : HoldLine) (s : State) : HaltsKept s (holdAssertion l n s) := by
  unfold holdAssertion
  split
  · split
    · exact (HaltsKept.refl s).fields
    · exact (HaltsKept.refl s).fields
    · exact (HaltsKept.refl s).fields
    · exact (HaltsKept.refl s).clearHold.endFollow
    all_goals exact .refl s
  · exact .refl s

/-! Deliveries -/

/-- A delivery taken is a halt lost only if acting on it does not end what it was to end: an emergency, whatever can be
braked, and the loss of its controller's ENABLE, the lane's motion. -/
theorem halts_takeDelivery {m : LaneMessage} {act : State → State} (hact : ∀ s, HaltsKept s (act s))
    (hem : ∀ s, m = .emergency → ¬ ((act s).lane l).state.braked)
    (hen : ∀ c s, m = .enableLoss c → (s.lane l).controller = some c → ((act s).lane l).state.motion = false) :
    HaltsKept s (takeDelivery l m act s) := by
  unfold takeDelivery
  split
  swap
  · exact .refl s
  set w := s.updLane l (fun ln => { ln with inbox := ln.inbox.erase m }) with hw
  have hlane : w.lane l = { s.lane l with inbox := (s.lane l).inbox.erase m } := lane_updLane_same _ _ _
  obtain ⟨hlatch, hlines, hkept⟩ := hact w
  refine ⟨hlatch, hlines, fun k => ?_⟩
  by_cases hk : k = l
  · subst hk
    obtain ⟨hbraked, hmotion⟩ := hkept k
    rw [hlane] at hbraked hmotion
    refine ⟨fun hb => ?_, fun hm => ?_⟩
    · obtain ⟨hx, hin⟩ := hbraked hb
      exact ⟨hx, fun he => hin ((List.mem_erase_of_ne (fun e => hem w e.symm hb)).2 he)⟩
    · obtain ⟨hx, hc, hin⟩ := hmotion hm
      refine ⟨hx, hc, fun c hcs he => hin c hcs ((List.mem_erase_of_ne (fun e => ?_)).2 he)⟩
      have hrest := hen c w e.symm (by rw [hlane]; exact hcs)
      rw [hrest] at hm
      cases hm
  · have hother : w.lane k = s.lane k := (lane_updLane _ _ _ _).trans (if_neg (Ne.symm hk))
    exact hother ▸ hkept k

theorem halts_emergency (l : LaneId) (s : State) : HaltsKept s (takeDelivery l .emergency (emergencyLane l) s) :=
  halts_takeDelivery (halts_emergencyLane l) (fun v _ => emergencyLane_rests l v) (fun _ _ e => nomatch e)

theorem halts_enableHalt (l : LaneId) (c : Console) (s : State) :
    HaltsKept s (takeDelivery l (.enableLoss c) (enableLoss l c) s) := by
  refine halts_takeDelivery (fun v => .ite (halts_haltLane l _ v) (.refl v)) (fun _ e => nomatch e) (fun c' v e hc => ?_)
  cases e
  rw [enableLoss_own hc]
  exact haltLane_rests l _ v

theorem halts_takeNotice (l : LaneId) (a : AxisId) (s : State) : HaltsKept s (takeNotice l a s) :=
  .ite (halts_takeDelivery (halts_faultNotice l a) (fun _ e => nomatch e) (fun _ _ e => nomatch e)) (.refl s)

theorem halts_tripTaken (l : LaneId) (n : PairId) (s : State) :
    HaltsKept s (takeDelivery l (.trip n) (interlockTrip l n) s) :=
  halts_takeDelivery (halts_interlockTrip l n) (fun _ e => nomatch e) (fun _ _ e => nomatch e)

theorem halts_holdTaken (l : LaneId) (n : HoldLine) (s : State) :
    HaltsKept s (takeDelivery l (.hold n) (holdAssertion l n) s) :=
  halts_takeDelivery (halts_holdAssertion l n) (fun _ e => nomatch e) (fun _ _ e => nomatch e)

/-! Plan results and releases -/

theorem halts_enterRunning (h : (s.lane l).state.motion = true) : HaltsKept s (enterRunning l s) :=
  (HaltsKept.refl s).fields.goes (by rw [lane_updLane_same]; exact h)

/-- A plan is accepted by a lane already in motion, in PLANNING. -/
theorem halts_acceptPlan (plan : PlanRecord) (h : (s.lane l).state = .planning) : HaltsKept s (acceptPlan l plan s) := by
  rw [acceptPlan_eq plan h]
  have hstart : HaltsKept s (((plan.moving.map (·.axis)).foldl startMember s).setContext l (some (newContext plan))) :=
    (HaltsKept.foldl startMember (fun v _ => .ite (HaltsKept.refl v).same (.refl v)) _ s).setContext
  have hplanning : ((((plan.moving.map (·.axis)).foldl startMember s).setContext l (some (newContext plan))).lane l).state
      = .planning := by
    rw [startMember_all]
    exact h
  refine (hstart.trans (halts_updLane _ ?_)).same
  exact .of_fields (fun _ => .inl (by rw [hplanning]; rfl)) (fun _ => by rw [hplanning]; rfl) rfl (List.Subset.refl _)

theorem halts_rejectPlan (reason : VoidReason) : HaltsKept s (rejectPlan l reason s) :=
  (HaltsKept.refl s).emit.standDown

theorem halts_takeResult (l : LaneId) (s : State) : HaltsKept s (takeResult l s) := by
  unfold takeResult
  split
  · next h _ =>
    dsimp only
    refine HaltsKept.trans (t := s.updLane l (fun ln => { ln with planResult := none })) (HaltsKept.refl s).fields ?_
    split
    · exact halts_acceptPlan _ (by rw [lane_updLane_same]; exact h)
    all_goals exact halts_rejectPlan _
  · exact .refl s

theorem halts_endRelease (l : LaneId) (s : State) : HaltsKept s (endRelease l s) := by
  unfold endRelease
  split
  · next h _ => exact .ite (halts_enterRunning (by rw [h]; rfl)) (.refl s)
  · exact .refl s

theorem halts_expireRelease (l : LaneId) (s : State) : HaltsKept s (expireRelease l s) := by
  unfold expireRelease
  split
  · split
    · exact (HaltsKept.foldl _ (fun v _ => (HaltsKept.refl v).applyFault) _ s).recordHalt.restMembers.dropContext.standDown
    · exact .refl s
  · exact .refl s

/-! ### Starting a step (R61 to R63) -/

/-- The checks of a GO pass with the latch clear and the ENABLE tested active (R61). -/
theorem goChecks_safe {c : Option Console} (h : goChecks l c s = .ok t) :
    s.latch = false ∧ ∃ k, c = some k ∧ s.enabled k = true := by
  unfold goChecks at h
  split_ifs at h with hlatch hen
  refine ⟨by simpa using hlatch, ?_⟩
  cases c with
  | none => exact absurd rfl hen
  | some k => exact ⟨k, rfl, by simpa using hen⟩

/-- A GO of the lane's controller begins a motion that every halt reaches. -/
theorem reach_enterPlanning (resume : Bool) (h : StopsReachLanes s) (hs : (s.lane l).state ≠ .planning)
    (hgo : goChecks l (s.lane l).controller s = .ok t) : StopsReachLanes (enterPlanning l resume t) := by
  obtain ⟨hlatch, c, hc, hen⟩ := goChecks_safe hgo
  obtain ⟨st, -, rfl, -⟩ := goChecks_ok hgo
  rw [enterPlanning_eq resume _ hs]
  set v := claimed l resume (st.moves.map (·.axis)) s with hv
  have hjoin : HaltsKept v ((joinQueue l v).emit (.laneState l (s.lane l).state .planning .none)) := by
    obtain ⟨pl, hjoin, -⟩ := joinQueue_cases l v
    rw [hjoin]
    obtain e | ⟨m, queue, e⟩ := startService_cases { v with planner := pl } <;> rw [e] <;> exact (HaltsKept.refl v).same
  refine hjoin.reach (fun k => ?_)
  by_cases hk : k = l
  · subst hk
    refine ⟨fun _ => .inl hlatch, fun _ => ⟨c, ?_, .inl hen⟩⟩
    rw [hv, claimed_lane]
    exact hc
  · have hother : v.lane k = s.lane k := by
      rw [hv, claimed, lane_updLane, if_neg (Ne.symm hk)]
      exact Table.get_modify_of_ne _ _ (Ne.symm hk)
    rw [hother]
    exact h k

theorem reach_automaticGo (h : StopsReachLanes s) (hs : (s.lane l).state = .follow) :
    StopsReachLanes (automaticGo l s) := by
  unfold automaticGo
  split
  · next hgo => exact reach_enterPlanning false h (by rw [hs]; simp) hgo
  · exact (HaltsKept.refl s).endFollow.emit.reach h

/-- A wait counted down and ended by the automatic GO. -/
theorem reach_waitEnds {f : Lane → Lane} (hf : ∀ ln, LaneGains ln (f ln)) (h : StopsReachLanes s)
    (hs : (s.lane l).state = .follow) : StopsReachLanes (automaticGo l (s.updLane l f)) :=
  reach_automaticGo (((HaltsKept.refl s).fields hf).reach h) (by rw [lane_updLane_same]; exact (hf _).1.trans hs)

theorem reach_followCount (l : LaneId) (h : StopsReachLanes s) : StopsReachLanes (followCount l s) := by
  unfold followCount
  dsimp only
  split
  · next hw =>
    split
    · exact reach_waitEnds (fun _ => ⟨rfl, rfl, List.Subset.refl _⟩) h hw.1
    · exact (HaltsKept.refl s).fields.reach h
  · exact h

theorem reach_linkedCount (l : LaneId) (h : StopsReachLanes s) : StopsReachLanes (linkedCount l s) := by
  unfold linkedCount
  dsimp only
  split
  · next hw =>
    split
    · exact reach_waitEnds (fun _ => ⟨rfl, rfl, List.Subset.refl _⟩) h hw.1
    · exact (HaltsKept.refl s).fields.reach h
  · exact h

/-! Step completion (R74 to R76) -/

theorem halts_closeStep : HaltsKept s (closeStep l s) := by
  have hoffer (v : State) : HaltsKept v (offerCompletion l v) := halts_lanes _ (fun k => by
    rw [Table.get_mapIdx]
    split <;> exact ⟨rfl, rfl, List.Subset.refl _⟩)
  unfold closeStep
  dsimp only
  exact ((HaltsKept.release (HaltsKept.refl s).same).fields.emit).trans (hoffer _)

theorem halts_endSequence (broken : Bool) : HaltsKept s (endSequence l broken s) :=
  (HaltsKept.refl s).fields.emit.rests idle_unbraked

theorem reach_enterFollow (kind : FollowKind) (count : Nat) (h : StopsReachLanes s) :
    StopsReachLanes (enterFollow l kind count s) := by
  unfold enterFollow
  dsimp only
  have hwait : StopsReachLanes (changeState l .follow (s.updLane l (fun ln =>
      { ln with followCounter := count, followKind := some kind, followDue := false, decrements := 0 }))) :=
    ((HaltsKept.refl s).fields.rests follow_unbraked).reach h
  split
  · exact reach_automaticGo hwait (changeState_state _)
  · exact hwait

theorem reach_continueSequence (mode : FollowMode) (h : StopsReachLanes s) :
    StopsReachLanes (continueSequence l mode s) := by
  unfold continueSequence
  split
  · exact ((HaltsKept.refl s).clearHold.rests ready_unbraked).reach h
  · split
    · exact ((HaltsKept.refl s).rests ready_unbraked).reach h
    · exact reach_enterFollow _ _ h
    · split
      · exact ((HaltsKept.refl s).rests ready_unbraked).reach h
      · exact reach_enterFollow _ _ h

theorem reach_completeStep (l : LaneId) (h : StopsReachLanes s) : StopsReachLanes (completeStep l s) := by
  have hclosed : StopsReachLanes (closeStep l s) := halts_closeStep.reach h
  unfold completeStep
  split
  · split
    · dsimp only
      split
      · exact (halts_endSequence _).reach hclosed
      · exact reach_continueSequence _ ((HaltsKept.refl _).fields.reach hclosed)
    · exact h
  · exact h

end Sys2Proof.Machine


namespace Sys2Proof.Machine

-- Declarations are elaborated one at a time: the threads of the whole text would pass the limit of the check.
set_option Elab.async false

variable {s t u : State} {l k : LaneId} {a b : AxisId}

/-! ### Halts through the part's other steps -/

theorem halts_generatorWork (l : LaneId) (s : State) : HaltsKept s (generatorWork l s) := by
  have hmember (ramp time : Nat) (v : State) (m : PlanMember) : HaltsKept v (evaluateMember l ramp time v m) := by
    unfold evaluateMember
    dsimp only
    split
    · exact .ite (HaltsKept.refl v).updAxis.noteWrite.setContext.updAxis (HaltsKept.refl v).updAxis.noteWrite.setContext
    · exact .refl v
  unfold generatorWork
  split
  · exact .refl s
  · split
    · split
      · exact (HaltsKept.refl s).setContext
      · have hmembers := fun (ramp time : Nat) (ms : List PlanMember) (v : State) =>
          HaltsKept.foldl (evaluateMember l ramp time) (hmember ramp time) ms v
        exact .ite (HaltsKept.trans (HaltsKept.refl s).fields.setContext (hmembers _ _ _ _)).setContext
          (HaltsKept.trans (HaltsKept.refl s).fields.setContext (hmembers _ _ _ _))
      · exact (HaltsKept.refl s).setContext
    · exact .refl s

theorem halts_beginPeriod (s : State) : HaltsKept s (beginPeriod s) :=
  ⟨rfl, rfl, fun k => by
    simp only [beginPeriod, State.lane, Table.get_map]
    exact LaneGains.halts ⟨rfl, rfl, List.Subset.refl _⟩⟩

theorem halts_stopStep (a : AxisId) (s : State) : HaltsKept s (stopStep a s) := by
  have hmoved (r : StopRecord) (w : Nat) (e : EventBody) {p : Prop} [Decidable p] :
      HaltsKept s (moveSetpoint a w ((if p then s.emit e else s).setStop a (some r))) :=
    (HaltsKept.same (t := if p then s.emit e else s) (.ite (HaltsKept.refl s).emit (.refl s))).updAxis.noteWrite
  unfold stopStep
  split
  · split
    · unfold trajectoryStep
      dsimp only
      split
      · split
        · exact (HaltsKept.same (hmoved _ _ _)).endTest
        · exact (hmoved _ _ _).same
      · exact hmoved _ _ _
    · exact .refl s
  · exact .refl s

theorem halts_completePlan (s : State) : HaltsKept s (completePlan s) := by
  have hserve (v : State) : HaltsKept v (startService v) := by
    obtain e | ⟨m, queue, e⟩ := startService_cases v <;> rw [e] <;> exact (HaltsKept.refl v).same
  unfold completePlan
  split
  · exact .refl s
  · refine HaltsKept.trans ?_ (hserve _)
    have hidle : HaltsKept s { s with planner := { s.planner with inProgress := none } } := (HaltsKept.refl s).same
    exact .ite hidle (.ite hidle.fields hidle)

/-! Notices and replies -/

theorem halts_takeOnlineNotice (a : AxisId) (s : State) : HaltsKept s (takeOnlineNotice a s) := by
  unfold takeOnlineNotice
  split
  · split
    · exact .ite (.refl s) (.ite (HaltsKept.same (HaltsKept.refl s)).seed (HaltsKept.refl s).same)
    · exact .refl s
  · exact .refl s

theorem halts_takeLostNotice (a : AxisId) (s : State) : HaltsKept s (takeLostNotice a s) := by
  have hlost (v : State) : HaltsKept v (stationLost a v) := by
    unfold stationLost
    split
    · exact (HaltsKept.refl v).updAxis.updAxis.noteWrite
    · exact (HaltsKept.refl v).applyFault
    · exact (HaltsKept.refl v).applyFault
    all_goals exact .refl v
  unfold takeLostNotice
  split
  · split
    · exact (HaltsKept.same (HaltsKept.refl s)).trans (hlost _)
    · exact .refl s
  · exact .refl s

theorem halts_takeFaultRequest (a : AxisId) (cause : FaultCause) (s : State) : HaltsKept s (takeFaultRequest a cause s) :=
  .ite (HaltsKept.same (HaltsKept.refl s)).applyFault (.refl s)

theorem halts_takeReplyCheck (a : AxisId) (s : State) : HaltsKept s (takeReplyCheck a s) := by
  have hwarn (c : ReplyCheck) (v : State) : HaltsKept v (warnLoad c v) := by
    unfold warnLoad
    dsimp only
    split
    · exact .refl v
    · split_ifs <;> exact (HaltsKept.refl v).same
  unfold takeReplyCheck
  split
  · exact .refl s
  · unfold checkReply
    split
    · exact (HaltsKept.refl s).same
    · exact (HaltsKept.same (HaltsKept.refl s)).trans (hwarn _ _)

theorem halts_takeMark (a : AxisId) (s : State) : HaltsKept s (takeMark a s) := by
  unfold takeMark
  split
  · exact .refl s
  · unfold setMark
    split
    · split <;> exact (HaltsKept.refl s).same
    · exact (HaltsKept.refl s).same

theorem halts_driveRound (s : State) : HaltsKept s (driveRound s) := by
  unfold driveRound
  split
  · split
    · exact (HaltsKept.refl s).same
    · split <;> exact (HaltsKept.refl s).same
  · exact .refl s

/-- An outcome touches the lanes at most through the gap check of a seed (R129, R165). -/
theorem halts_takeSlot (e : StationEntry) (o : ReplyOutcome) : HaltsKept s (takeSlot a e o s) := by
  have hstore : HaltsKept s (storeEntry a e (takeOutcome o e) s) :=
    .ite (HaltsKept.refl s).same (.ite (HaltsKept.refl s).same (HaltsKept.refl s).same)
  have hmotion (r : Reply) (fr : FrameRecord) (v : State) : HaltsKept v (handToMotion a r fr v) :=
    .ite (HaltsKept.refl v).same (.refl v)
  have hlatch (f : Nat) (v : State) : HaltsKept v (seedUnderLatch a f v) := .ite (HaltsKept.refl v).seed (.refl v)
  have hhand (r : Reply) (fr : FrameRecord) (online : Bool) (v : State) : HaltsKept v (handOn a r fr online v) := by
    unfold handOn
    exact (HaltsKept.trans (.ite (HaltsKept.refl v).same (HaltsKept.refl v).same) (hlatch _ _)).trans (hmotion _ _ _)
  unfold takeSlot
  dsimp only
  split
  · exact hstore.trans (hhand _ _ _ _)
  · exact hstore

theorem halts_statusFrame (latency : Nat) (bytes : List Byte) (s : State) : HaltsKept s (statusFrame latency bytes s) := by
  unfold statusFrame
  split
  · exact .refl s
  · split
    · exact .refl s
    · split
      · exact (HaltsKept.refl s).same
      · exact (HaltsKept.same (HaltsKept.refl s)).trans (halts_takeSlot _ _)

theorem halts_windowExpiry (s : State) : HaltsKept s (windowExpiry s) := by
  unfold windowExpiry
  split
  · exact .refl s
  · split
    · exact (HaltsKept.refl s).same
    · exact (HaltsKept.same (HaltsKept.refl s)).trans (halts_takeSlot _ _)

/-! Ports, stores and the Image Loader -/

theorem HaltsKept.offerAll (h : HaltsKept s t) : HaltsKept s (offerAll t) := by
  rw [offerAll_eq]
  exact h.same

theorem halts_offerOldest (s : State) : HaltsKept s (offerOldest s) := by
  unfold offerOldest
  split <;> exact (HaltsKept.refl s).same

theorem halts_judgeFrame (p : Console) (s : State) : HaltsKept s (judgeFrame p s) := by
  unfold judgeFrame
  split
  · exact .refl s
  · dsimp only
    split
    · unfold admitFrame
      split <;> exact (HaltsKept.refl s).same
    · exact (HaltsKept.refl s).same

theorem halts_completeSave (bad : List (Nat × Byte)) (s : State) : HaltsKept s (completeSave bad s) := by
  unfold completeSave
  split
  · exact .refl s
  · dsimp only
    split <;> exact (HaltsKept.refl s).same

theorem halts_completeLoad (found : List (Nat × Byte)) (s : State) : HaltsKept s (completeLoad found s) :=
  .ite (HaltsKept.same (HaltsKept.refl s)).offerAll (.refl s)

theorem halts_putStep (step : Half) (b : RawStep) (s : State) : HaltsKept s (putStep step b s).1 := by
  unfold putStep
  split
  · split_ifs <;> exact (HaltsKept.refl s).same
  · exact .refl s

theorem halts_dropStep (step : Half) (s : State) : HaltsKept s (dropStep step s).1 := by
  unfold dropStep
  split
  · exact .refl s
  · split_ifs <;> exact (HaltsKept.refl s).same

theorem halts_putPair (pair upper lower : Byte) (gap : Half) (s : State) :
    HaltsKept s (putPair pair upper lower gap s).1 := by
  unfold putPair
  split
  · exact .refl s
  · split
    · exact .refl s
    · split
      · split_ifs <;> exact (HaltsKept.refl s).same
      · exact .refl s

theorem halts_dropPair (pair : Byte) (s : State) : HaltsKept s (dropPair pair s).1 := by
  unfold dropPair
  split
  · exact .refl s
  · split <;> exact (HaltsKept.refl s).same

theorem halts_getStation (axis clear : Byte) (s : State) : HaltsKept s (getStation axis clear s).1 := by
  unfold getStation
  split
  · exact .refl s
  · split
    · exact .refl s
    · split
      · exact .refl s
      · exact .ite (HaltsKept.refl s).same (.refl s)

theorem halts_setFilter (p : Console) (filter : Byte) (s : State) : HaltsKept s (setFilter p filter s).1 := by
  unfold setFilter
  split <;> exact (HaltsKept.refl s).same

theorem halts_saveImage (p : Console) (s : State) : HaltsKept s (saveImage p s).1 := by
  unfold saveImage
  split <;> exact (HaltsKept.refl s).same

theorem halts_returnToRest : HaltsKept s (returnToRest a s) := by
  unfold returnToRest
  dsimp only
  split
  · exact (HaltsKept.refl s).updAxis.seed
  · exact (HaltsKept.refl s).updAxis

theorem halts_configureAxis (c : AxisConfig) : HaltsKept s (configureAxis a c s) := by
  have hinstall : HaltsKept s (installConfig a c s) := (HaltsKept.refl s).updAxis.updAxis.noteWrite.same
  unfold configureAxis
  split
  · exact .ite (HaltsKept.refl s).updAxis hinstall
  · exact hinstall

/-- A part whose lanes are all IDLE has no halt to take. -/
theorem reach_idle (h : ∀ l, (s.lane l).state = .idle) : StopsReachLanes s := fun l => by
  rw [h l]
  exact ⟨fun hb => absurd hb idle_unbraked, fun hm => nomatch hm⟩

/-! ### Requests (Chapters 2 and 4) -/

theorem reach_serve {p : Console} {tag kind : Byte} {self : Instr} {act : State → State × Answer} (h : StopsReachLanes s)
    (hact : StopsReachLanes (act s).1) : StopsReachLanes (serve p tag kind self act s) := by
  have hfinish : HaltsKept (act s).1 (finish p tag kind act s) :=
    (HaltsKept.ite (.refl _) (HaltsKept.refl _).offerAll : HaltsKept _ (offerNew s.messages.posted.length (act s).1)).same
  obtain e | e | ⟨code, e⟩ := serve_cases p tag kind self act s
  · rw [e]
    exact hfinish.reach hact
  · rw [e]
    exact (HaltsKept.refl s).same.reach h
  · rw [e]
    exact (HaltsKept.refl s).same.reach h

/-- A controller-only request acts on a lane that its port controls, or answers a refusal (R24). -/
theorem onOwnLane_keeps_own {P : State → Prop} {p : Console} {lane : Byte} {act : LaneId → State → State × Answer} (hs : P s)
    (hact : ∀ l, (s.lane l).controller = some p → P (act l s).1) : P (onOwnLane p lane act s).1 := by
  unfold onOwnLane
  split
  · exact hs
  · split
    · next h => exact hact _ h
    · exact hs

/-- A lane outside the motion states may change its controller (R25, R26). -/
theorem halts_setController (c : Option Console) (h : (s.lane l).state.motion = false) :
    HaltsKept s (setController l c s) := by
  refine HaltsKept.emit (halts_updLane _ ⟨fun hb => ⟨hb, id⟩, fun hm => ?_⟩)
  rw [h] at hm
  cases hm

/-- A lane in motion has a controller, so one without may be taken. -/
theorem reach_takeLane (p : Console) (l : LaneId) (h : StopsReachLanes s) : StopsReachLanes (takeLane p l s).1 := by
  unfold takeLane
  split
  · next hnone =>
    refine (halts_setController _ ?_).reach h
    by_contra hm
    obtain ⟨c, hc, -⟩ := (h l).2 (by simpa using hm)
    rw [hnone] at hc
    cases hc
  · split
    · exact h
    · split
      · next hd =>
        refine (halts_setController _ ?_).reach h
        have hdisplaced := displaceable_iff.1 hd.2
        simp only [List.mem_cons, List.not_mem_nil, or_false] at hdisplaced
        rcases hdisplaced with e | e | e | e <;> rw [e] <;> rfl
      · exact h

theorem halts_yieldLane (l : LaneId) (s : State) : HaltsKept s (yieldLane l s).1 := by
  unfold yieldLane
  split
  case h_1 h | h_2 h | h_3 h => exact halts_setController _ (by rw [h]; rfl)
  all_goals exact .refl s

theorem halts_setHoldLine (source : Byte) (l : LaneId) (s : State) : HaltsKept s (setHoldLine source l s).1 := by
  unfold setHoldLine
  split
  · exact .refl s
  · exact (HaltsKept.refl s).fields

theorem HaltsKept.loadStep (h : HaltsKept s t) {r : StepRef} : HaltsKept s (loadStep l r t) := h.fields.rests ready_unbraked

theorem HaltsKept.letGo (h : HaltsKept s t) : HaltsKept s (letGo l t) := h.fields.release

theorem halts_loadLane (step : Half) (l : LaneId) (s : State) : HaltsKept s (loadLane step l s).1 := by
  unfold loadLane
  split
  · exact .refl s
  · split
    case h_1 | h_2 =>
      split
      · exact .refl s
      · refine HaltsKept.loadStep ?_
        exact .ite (HaltsKept.refl s).letGo (.refl s)
    case h_3 =>
      split
      · exact .refl s
      · exact (HaltsKept.refl s).letGo.loadStep
    all_goals exact .refl s

theorem halts_clearLane (l : LaneId) (s : State) : HaltsKept s (clearLane l s).1 := by
  unfold clearLane
  split
  case h_1 => exact (HaltsKept.refl s).recordHalt
  case h_2 | h_3 | h_4 => exact (HaltsKept.refl s).letGo.fields.rests idle_unbraked
  all_goals exact .refl s

theorem reach_goLane (p : Console) (l : LaneId) (hc : (s.lane l).controller = some p) (h : StopsReachLanes s) :
    StopsReachLanes (goLane p l s).1 := by
  have hgo (resume : Bool) (t : State) (hs : (s.lane l).state ≠ .planning) (e : goChecks l (some p) s = .ok t) :
      StopsReachLanes (enterPlanning l resume t) := reach_enterPlanning resume h hs (hc ▸ e)
  unfold goLane
  split
  · next hs =>
    split
    · next e => exact hgo _ _ (by simp [hs]) e
    · exact h
  · next hs =>
    split
    · next e => exact hgo _ _ (by simp [hs]) e
    · exact h
  · next hs =>
    split
    · next e => exact hgo _ _ (by simp [hs]) e
    · exact (HaltsKept.refl s).endFollow.reach h
  all_goals exact h

theorem reach_directLane (p : Console) (rs tn : Half) (ms : List RawMove) (l : LaneId)
    (hc : (s.lane l).controller = some p) (h : StopsReachLanes s) : StopsReachLanes (directLane p rs tn ms l s).1 := by
  have hwritten (st : Step) (hs : (s.lane l).state ∈ [LaneState.idle, .ready]) :
      StopsReachLanes (writeDirect l st s) ∧ ((writeDirect l st s).lane l).state = .ready ∧
        ((writeDirect l st s).lane l).controller = some p := by
    refine ⟨(HaltsKept.same (HaltsKept.refl s)).loadStep.reach h, ?_⟩
    rw [writeDirect_eq st hs]
    have hlane : ((directLoaded l st s).lane l).controller = (s.lane l).controller := by simp [directLoaded, State.lane]
    exact ⟨directLoaded_state st, hlane.trans hc⟩
  have hgo (st : Step) (hs : (s.lane l).state ∈ [LaneState.idle, .ready]) (t : State)
      (e : goChecks l (some p) (writeDirect l st s) = .ok t) : StopsReachLanes (enterPlanning l false t) := by
    obtain ⟨hreach, hready, hcontroller⟩ := hwritten st hs
    exact reach_enterPlanning false hreach (by rw [hready]; simp) (hcontroller ▸ e)
  unfold directLane
  split
  · exact h
  · split
    case h_1 hs | h_2 hs =>
      dsimp only
      split
      · next e => exact hgo _ (by simp [hs]) _ e
      · exact (hwritten _ (by simp [hs])).1
    all_goals exact h

/-! ### Every command -/

/-- Every command keeps the halts reaching the lanes. -/
theorem exec_keeps_reach {i : Instr} (h : StopsReachLanes s) (e : exec i s = .next t) : StopsReachLanes t := by
  have kept {t : State} (hk : HaltsKept s t) : StopsReachLanes t := hk.reach h
  have same : HaltsKept s s := .refl s
  cases i with
  | pinReset => cases e; exact reach_idle (fun l => congrArg Lane.state (reset_lane (l := l)))
  | imageLoadCompletion found => cases e; exact kept (halts_completeLoad found s)
  | saveCompletion bad => cases e; exact kept (halts_completeSave bad s)
  | periodStart => cases e; exact kept (halts_beginPeriod s)
  | motionGeneratorWork l => cases e; exact kept (halts_generatorWork l s)
  | stopTrajectoryStep a => cases e; exact kept (halts_stopStep a s)
  | arrival => cases e; exact kept (.ite same.updAxis same)
  | stepCompletion l => cases e; exact reach_completeStep l h
  | followExpiry l => cases e; exact reach_followCount l h
  | linkedDecrement l => cases e; exact reach_linkedCount l h
  | releaseTimeout l => cases e; exact kept (halts_expireRelease l s)
  | releaseEnd l => cases e; exact kept (halts_endRelease l s)
  | trackingMark a => cases e; exact kept (halts_takeMark a s)
  | planCompletion => cases e; exact kept (halts_completePlan s)
  | planWithdrawal => cases e; exact kept (.ite same.same same)
  | planResult l => cases e; exact kept (halts_takeResult l s)
  | faultRequest a cause => cases e; exact kept (halts_takeFaultRequest a cause s)
  | faultNotice l a => cases e; exact kept (halts_takeNotice l a s)
  | interlockTrip l n => cases e; exact kept (halts_tripTaken l n s)
  | emergency l => cases e; exact kept (halts_emergency l s)
  | enableHalt l c => cases e; exact kept (halts_enableHalt l c s)
  | holdAssertion l n => cases e; exact kept (halts_holdTaken l n s)
  | rawLevelChange line high => cases e; exact reach_rawLevel line high h
  | qualifiedChange line => cases e; exact reach_qualify line h
  | driveRound => cases e; exact kept (halts_driveRound s)
  | statusFrame latency bytes => cases e; exact kept (halts_statusFrame latency bytes s)
  | replyWindowExpiry => cases e; exact kept (halts_windowExpiry s)
  | stationOnlineNotice a => cases e; exact kept (halts_takeOnlineNotice a s)
  | stationLostNotice a => cases e; exact kept (halts_takeLostNotice a s)
  | supervisorReplyCheck a => cases e; exact kept (halts_takeReplyCheck a s)
  | consoleFrame p => cases e; exact kept (halts_judgeFrame p s)
  | frameTimeout => cases e; exact kept same.same
  | replySent => cases e; exact kept same.same
  | eventPosted => cases e; exact kept (halts_offerOldest s)
  | byteReceived => cases e; exact kept same.same
  | take p => cases e; exact reach_serve h (onLane_keeps h (fun l => reach_takeLane p l h))
  | yield => cases e; exact reach_serve h (onOwnLane_keeps h (fun l => kept (halts_yieldLane l s)))
  | load => cases e; exact reach_serve h (onOwnLane_keeps h (fun l => kept (halts_loadLane _ l s)))
  | go p => cases e; exact reach_serve h (onOwnLane_keeps_own h (fun l hc => reach_goLane p l hc h))
  | halt => cases e; exact reach_serve h (onLane_keeps h (fun l => kept (halts_haltLane l _ s)))
  | clearLane => cases e; exact reach_serve h (onOwnLane_keeps h (fun l => kept (halts_clearLane l s)))
  | setRate => cases e; exact reach_serve h (onOwnLane_keeps h (fun _ => kept same.fields))
  | setRepeat => cases e; exact reach_serve h (onOwnLane_keeps h (fun _ => kept same.fields))
  | setHoldLine => cases e; exact reach_serve h (onOwnLane_keeps h (fun l => kept (halts_setHoldLine _ l s)))
  | direct p => cases e; exact reach_serve h (onOwnLane_keeps_own h (fun l hc => reach_directLane p _ _ _ l hc h))
  | getLane => cases e; exact reach_serve h (onLane_keeps h (fun _ => h))
  | putStep => cases e; exact reach_serve h (kept (halts_putStep _ _ s))
  | dropStep => cases e; exact reach_serve h (kept (halts_dropStep _ s))
  | getStep => cases e; exact reach_serve h (by rw [getStep_state]; exact h)
  | putAxis =>
    cases e
    exact reach_serve h (putAxis_keeps h (fun _ _ => kept same.same) (fun _ _ _ _ _ _ => kept (halts_configureAxis _)))
  | putAxisRemove => cases e; exact reach_serve h (putAxisRemove_keeps h (fun _ _ => kept same.same))
  | getAxis => cases e; exact reach_serve h (by rw [getAxis_state]; exact h)
  | lockSet => cases e; exact reach_serve h (kept same.same)
  | clearFault => cases e; exact reach_serve h (clearFault_keeps h (fun _ _ => kept halts_returnToRest))
  | putPair => cases e; exact reach_serve h (kept (halts_putPair _ _ _ _ s))
  | dropPair => cases e; exact reach_serve h (kept (halts_dropPair _ s))
  | getStation => cases e; exact reach_serve h (kept (halts_getStation _ _ s))
  | poll => cases e; exact reach_serve h (kept same.same)
  | fetch => cases e; exact reach_serve h (kept same.same)
  | setFilter p => cases e; exact reach_serve h (kept (halts_setFilter p _ s))
  | eStop p => cases e; exact reach_serve h (reach_setLatch _ h)
  | clearEStop p => cases e; exact reach_serve h (reach_clearEStop p h)
  | masterClear =>
    cases e
    exact reach_serve h (masterClear_keeps h (fun _ => reach_idle (fun l => congrArg Lane.state (lane_masterCleared (l := l)))))
  | saveImage p => cases e; exact reach_serve h (kept (halts_saveImage p s))

/-- Settles O56: a command begins a motion only by a GO, which finds the latch clear and an ENABLE active, and takes a halt
off an inbox only to act on it. -/
theorem every_step_keeps_stops_reaching_lanes : Obligations.every_step_keeps_stops_reaching_lanes :=
  fun _ _ => step_leads (fun h => (HaltsKept.refl _).same.reach h) id exec_keeps_reach

end Sys2Proof.Machine


namespace Sys2Proof.Machine

-- Declarations are elaborated one at a time: the threads of the whole text would pass the limit of the check.
set_option Elab.async false

variable {s t u : State} {l k : LaneId} {a b : AxisId}

/-! ### The period start (R77, R100, R153, R163, R176) -/

/-- A saturating count in the words of R163. -/
theorem bump_eq_min (n : Nat) : bump n = min (n + 1) 65535 := by
  have hmax : Config.counterMax = 65535 := rfl
  unfold bump
  split <;> omega

theorem followDueAt_eq (ln : Lane) : followDueAt ln = decide (ln.state = .follow ∧ ln.followKind = some .timed) :=
  (Bool.decide_and _ _).symm

/-- Settles O10: each table of the state is mapped entry by entry, and nothing else is written. -/
theorem a_period_start_counts_and_begins_the_work : Obligations.a_period_start_counts_and_begins_the_work := by
  intro s
  have hbump : bump = fun n => min (n + 1) 65535 := funext bump_eq_min
  refine ⟨beginPeriod s, rfl, rfl, rfl, fun l => ?_, fun l => Table.get_map _ _ _, fun a => Table.get_map _ _ _,
    fun a => ?_, rfl⟩
  · rw [← followDueAt_eq]
    exact Table.get_map _ _ _
  · rw [← hbump]
    exact Table.get_map _ _ _

/-! ### Plan results that fail, and the end of a release (R66, R68, R104) -/

/-- A failed plan's result is taken off the lane, and the lane rejects the plan with its reason. -/
theorem takeResult_fails {r : PlanResult} {reason : VoidReason} (hs : (s.lane l).state = .planning)
    (hres : (s.lane l).planResult = some r)
    (hr : (∃ a, r = .void a ∧ reason = .void a) ∨ (r = .tooLong ∧ reason = .tooLong) ∨
      ∃ n, r = .interlock n ∧ reason = .interlock n) :
    takeResult l s = rejectPlan l reason (s.updLane l (fun ln => { ln with planResult := none })) := by
  rcases hr with ⟨a, rfl, rfl⟩ | ⟨rfl, rfl⟩ | ⟨n, rfl, rfl⟩
  all_goals simp only [takeResult, hs, hres]

/-- A fresh start gives its axes back behind its PLAN_VOID (R66). -/
theorem rejectPlan_fresh (reason : VoidReason) (f : Lane → Lane) (hs : (f (s.lane l)).state = .planning)
    (hr : (f (s.lane l)).resume = false) :
    rejectPlan l reason (s.updLane l f) = emitAll
      [.planVoid l reason, .laneState l .planning .ready (f (s.lane l)).haltCause]
      { s with
        axes := disowned l s.axes
        lanes := s.lanes.modify l (fun ln => { f ln with
          state := .ready, holdLatch := false, plan := none, claimSet := [] }) } := by
  have hlane : ((s.updLane l f).emit (.planVoid l reason)).lane l = f (s.lane l) := lane_updLane_same _ _ _
  have hready := changeState_behind (s := { s with axes := disowned l s.axes }) [.planVoid l reason]
    (fun ln => { f ln with holdLatch := false, plan := none, claimSet := [] }) (l := l) (st := .ready)
    (by show (f (s.lane l)).state ≠ .ready; rw [hs]; simp)
  have hstate : (f (({ s with axes := disowned l s.axes } : State).lane l)).state = .planning := hs
  rw [hstate] at hready
  rw [rejectPlan, standDown_fresh _ _ (by rw [hlane]; exact hr)]
  refine Eq.trans (congrArg (changeState l .ready) ?_) hready
  simp only [emit_eq_emitAll, emitAll, State.updMessages, State.updLane, Table.modify_modify]

/-- A resume keeps its axes (R66). -/
theorem rejectPlan_resume (reason : VoidReason) (f : Lane → Lane) (hs : (f (s.lane l)).state = .planning)
    (hr : (f (s.lane l)).resume = true) :
    rejectPlan l reason (s.updLane l f) = emitAll
      [.planVoid l reason, .laneState l .planning .held (f (s.lane l)).haltCause]
      (s.updLane l (fun ln => { f ln with state := .held, holdLatch := false })) := by
  have hlane : ((s.updLane l f).emit (.planVoid l reason)).lane l = f (s.lane l) := lane_updLane_same _ _ _
  have hheld := changeState_behind (s := s) [.planVoid l reason] (fun ln => { f ln with holdLatch := false }) (l := l)
    (st := .held) (by rw [hs]; simp)
  rw [hs] at hheld
  have hclear : clearHold l ((s.updLane l f).emit (.planVoid l reason)) =
      emitAll [.planVoid l reason] (s.updLane l (fun ln => { f ln with holdLatch := false })) := by
    rw [emit_eq_emitAll, clearHold, emitAll_updLane, updLane_updLane]
  have hstand : standDown l ((s.updLane l f).emit (.planVoid l reason)) =
      changeState l .held (clearHold l ((s.updLane l f).emit (.planVoid l reason))) :=
    if_pos (by rw [hlane]; exact hr)
  rw [rejectPlan, hstand, hclear, hheld]
  rfl

/-- Settles O18: the result is taken, PLAN_VOID is posted, and the lane stands down by its resume flag. -/
theorem a_failed_plan_stands_the_lane_down : Obligations.a_failed_plan_stands_the_lane_down := by
  intro l s r reason hs hres hr
  have hfails : exec (.planResult l) s = .next (takeResult l s) := rfl
  rw [hfails, takeResult_fails hs hres hr]
  exact ⟨fun hfresh => congrArg Host.Outcome.next (rejectPlan_fresh reason _ hs hfresh),
    fun hresume => congrArg Host.Outcome.next (rejectPlan_resume reason _ hs hresume)⟩

/-- Settles O19: RELEASE_END by whether every mark is set. -/
theorem a_release_ends_when_every_member_tracks : Obligations.a_release_ends_when_every_member_tracks := by
  intro l s c hs hc
  have hends : exec (.releaseEnd l) s = .next (if c.members.all (·.tracking) then enterRunning l s else s) := by
    show Host.Outcome.next (endRelease l s) = _
    simp only [endRelease, hs, hc]
  rw [hends]
  refine ⟨fun hall => ?_, fun ⟨m, hm, hmark⟩ => ?_⟩
  · rw [if_pos (List.all_eq_true.2 hall), enterRunning_eq (by rw [hs]; simp), hs]
  · rw [if_neg (fun hall => by rw [List.all_eq_true.1 hall m hm] at hmark; cases hmark)]

/-! ### The end of a follow wait, and the hold latch (R63, R79, R80, R133) -/

theorem endFollow_eq (hs : (s.lane l).state = .follow) :
    endFollow l s = emitAll [.laneState l .follow .ready (s.lane l).haltCause]
      (s.updLane l (fun ln => { ln with state := .ready, followDue := false, decrements := 0 })) := by
  have hready := changeState_behind (s := s) (l := l) [] (fun ln => { ln with followDue := false, decrements := 0 })
    (st := .ready) (by simp [hs])
  rw [emitAll_nil] at hready
  exact hs ▸ hready

theorem holdAssertion_latches {n : HoldLine} (hn : (s.lane l).holdSource = some n)
    (hs : (s.lane l).state ∈ [LaneState.planning, .releasing, .running]) :
    holdAssertion l n s = s.updLane l (fun ln => { ln with holdLatch := true }) := by
  simp only [List.mem_cons, List.not_mem_nil, or_false] at hs
  rcases hs with hs | hs | hs <;> simp only [holdAssertion, if_pos hn, hs]

theorem holdAssertion_ends_wait {n : HoldLine} (hn : (s.lane l).holdSource = some n)
    (hs : (s.lane l).state = .follow) : holdAssertion l n s = endFollow l (clearHold l s) := by
  simp only [holdAssertion, if_pos hn, hs]

theorem holdAssertion_idle {n : HoldLine}
    (h : (s.lane l).holdSource ≠ some n ∨ (s.lane l).state ∈ [LaneState.idle, .ready, .stopping, .held]) :
    holdAssertion l n s = s := by
  by_cases hn : (s.lane l).holdSource = some n
  · have hs := h.resolve_left (not_not.2 hn)
    simp only [List.mem_cons, List.not_mem_nil, or_false] at hs
    rcases hs with hs | hs | hs | hs <;> simp only [holdAssertion, if_pos hn, hs]
  · exact if_neg hn

/-- Settles O27: the delivery is taken off the inbox and acts by the lane's hold source and state. -/
theorem a_hold_assertion_acts_by_the_lane_state : Obligations.a_hold_assertion_acts_by_the_lane_state := by
  intro l n s hm
  set v := s.updLane l (fun ln => { ln with inbox := ln.inbox.erase (.hold n) }) with hv
  have htaken : exec (.holdAssertion l n) s = .next (holdAssertion l n v) :=
    congrArg Host.Outcome.next (takeDelivery_takes (holdAssertion l n) hm)
  have hlane : v.lane l = { s.lane l with inbox := (s.lane l).inbox.erase (.hold n) } := lane_updLane_same _ _ _
  have hsource : (v.lane l).holdSource = (s.lane l).holdSource := by rw [hlane]
  have hstate : (v.lane l).state = (s.lane l).state := by rw [hlane]
  rw [htaken, ← hsource, ← hstate]
  refine ⟨fun hn hs => ?_, fun hn hs => ?_, fun h => ?_⟩
  · rw [holdAssertion_latches hn hs, hv, updLane_updLane]
  · have hcleared : (clearHold l v).lane l = { v.lane l with holdLatch := false } := lane_updLane_same _ _ _
    rw [holdAssertion_ends_wait hn hs, endFollow_eq (by rw [hcleared]; exact hs), hcleared, hlane, clearHold, hv,
      updLane_updLane, updLane_updLane]
  · rw [holdAssertion_idle h]

/-! ### Follow waits (R63, R77, R78) -/

section
variable {c : Console} {f g : Lane → Lane}

/-- The checks of a GO do not see a lane's counters. -/
theorem firstRefusal_updLane (hf : (f (s.lane l)).current = (s.lane l).current) :
    firstRefusal (s.updLane l f) l c = firstRefusal s l c := by
  have hstep : currentStep (s.updLane l f) l = currentStep s l :=
    currentStep_congr rfl (by rw [lane_updLane_same]; exact hf)
  unfold firstRefusal
  rw [hstep]
  rfl

/-- The record of a lane without the marks of a wait. -/
def unmarked (ln : Lane) : Lane := { ln with followDue := false, decrements := 0 }

theorem fields_of_unmarked {x y : Lane} (h : unmarked x = unmarked y) :
    x.state = y.state ∧ x.controller = y.controller ∧ x.current = y.current ∧ x.haltCause = y.haltCause := by
  have hstate := congrArg Lane.state h
  have hcontroller := congrArg Lane.controller h
  have hcurrent := congrArg Lane.current h
  have hcause := congrArg Lane.haltCause h
  exact ⟨hstate, hcontroller, hcurrent, hcause⟩

/-- Entry to PLANNING writes the marks of a wait anew, so it is the same from lanes that differ in them alone. -/
theorem EntersPlanning.of_marks {resume : Bool} (h : EntersPlanning l resume (s.updLane l f) u)
    (hg : unmarked (g (s.lane l)) = unmarked (f (s.lane l))) : EntersPlanning l resume (s.updLane l g) u := by
  obtain ⟨st, hst, hlane, haxes, hbehind, hidle, hothers, hframe⟩ := h
  obtain ⟨-, -, hcurrent, -⟩ := fields_of_unmarked hg
  refine ⟨st, ?_, ?_, haxes, hbehind, hidle, fun k hk => ?_, ?_⟩
  · rw [← hst]
    exact currentStep_congr rfl (by rw [lane_updLane_same, lane_updLane_same, hcurrent])
  · rw [lane_updLane_same] at hlane ⊢
    exact hlane.trans (congrArg (fun ln : Lane => { ln with
      state := .planning, resume := resume, haltCause := .none, plan := none, planResult := none
      claimSet := st.moves.map Move.axis }) hg.symm)
  · rw [hothers k hk, lane_updLane, lane_updLane, if_neg hk.symm, if_neg hk.symm]
  · exact congrArg (fun w : State => { w with lanes := (s.updLane l g).lanes }) hframe

/-- The last count of a wait, made by `f` on the lane's record, is its automatic GO from a counter of 0 (R63). -/
theorem automaticGo_counted {r : Option Refused} (hs : (s.lane l).state = .follow)
    (hc : (s.lane l).controller = some c) (hf : unmarked (f (s.lane l)) = unmarked { s.lane l with followCounter := 0 })
    (hr : firstRefusal s l c = r) :
    (r = none → ∃ u, automaticGo l (s.updLane l f) = u.emit (.laneState l .follow .planning .none) ∧
      EntersPlanning l false (s.updLane l (fun ln => { ln with followCounter := 0 })) u) ∧
    ∀ x, r = some x → automaticGo l (s.updLane l f) =
      emitAll [.laneState l .follow .ready (s.lane l).haltCause, .goRefused l x.code x.axis x.lane]
        (s.updLane l (fun ln => { ln with state := .ready, followCounter := 0, followDue := false, decrements := 0 })) := by
  obtain ⟨hstate, hcontroller, hcurrent, hcause⟩ := fields_of_unmarked hf
  have hlane : (s.updLane l f).lane l = f (s.lane l) := lane_updLane_same _ _ _
  replace hstate : ((s.updLane l f).lane l).state = .follow := by rw [hlane]; exact hstate.trans hs
  replace hcontroller : ((s.updLane l f).lane l).controller = some c := by rw [hlane]; exact hcontroller.trans hc
  rw [← firstRefusal_updLane (f := f) hcurrent] at hr
  subst hr
  refine ⟨fun hpass => ?_, fun x hx => ?_⟩
  · obtain ⟨u, hgo, henters⟩ := automaticGo_passed hstate hcontroller hpass
    exact ⟨u, hgo, henters.of_marks hf.symm⟩
  · rw [automaticGo_refused hstate hcontroller hx, hlane, hcause, updLane_updLane]
    exact congrArg _ (updLane_congr (congrArg (fun ln : Lane => { ln with state := .ready }) hf))

end

/-- The count of a period start on the lane's record (R77). -/
def timedCount (ln : Lane) : Lane := { ln with followCounter := ln.followCounter - 1, followDue := false }

/-- The count of one completion on the lane's record (R78). -/
def linkedDecrement (ln : Lane) : Lane :=
  { ln with followCounter := ln.followCounter - 1, decrements := ln.decrements - 1 }

theorem exec_followExpiry (hs : (s.lane l).state = .follow) (hk : (s.lane l).followKind = some .timed)
    (hd : (s.lane l).followDue = true) : exec (.followExpiry l) s = .next
      (if (s.lane l).followCounter ≤ 1 then automaticGo l (s.updLane l timedCount) else s.updLane l timedCount) :=
  congrArg Host.Outcome.next (if_pos ⟨hs, hk, hd⟩)

theorem exec_linkedDecrement (hs : (s.lane l).state = .follow) (hd : 0 < (s.lane l).decrements) :
    exec (.linkedDecrement l) s = .next
      (if (s.lane l).followCounter ≤ 1 then automaticGo l (s.updLane l linkedDecrement)
        else s.updLane l linkedDecrement) :=
  congrArg Host.Outcome.next (if_pos ⟨hs, hd⟩)

/-- Settles O23: either count is one update of the lane's record, and the last one is followed by the automatic GO. -/
theorem a_follow_wait_counts_down_to_its_automatic_go :
    Obligations.a_follow_wait_counts_down_to_its_automatic_go := by
  refine ⟨fun l s => ⟨fun hs hk hd hn => ?_, fun hs hd hn => ?_, fun hs => ⟨?_, ?_⟩⟩, fun l s c i hs hc hn hi => ?_⟩
  · rw [exec_followExpiry hs hk hd, if_neg (Nat.not_le.2 hn)]
    rfl
  · rw [exec_linkedDecrement hs hd, if_neg (Nat.not_le.2 hn)]
    rfl
  · exact congrArg Host.Outcome.next (if_neg (fun h => hs h.1))
  · exact congrArg Host.Outcome.next (if_neg (fun h => hs h.1))
  · have hcounted : ∃ f : Lane → Lane, exec i s = .next (automaticGo l (s.updLane l f)) ∧
        unmarked (f (s.lane l)) = unmarked { s.lane l with followCounter := 0 } := by
      rcases hi with ⟨rfl, hk, hd⟩ | ⟨rfl, hd⟩
      · refine ⟨timedCount, (exec_followExpiry hs hk hd).trans (congrArg _ (if_pos hn.le)), ?_⟩
        simp only [unmarked, timedCount, hn]
      · refine ⟨linkedDecrement, (exec_linkedDecrement hs hd).trans (congrArg _ (if_pos hn.le)), ?_⟩
        simp only [unmarked, linkedDecrement, hn]
    obtain ⟨f, hexec, hf⟩ := hcounted
    obtain ⟨hpassed, hrefused⟩ := automaticGo_counted hs hc hf rfl
    refine ⟨fun h => ?_, fun r h => hexec.trans (congrArg _ (hrefused r h))⟩
    obtain ⟨u, hgo, henters⟩ := hpassed h
    exact ⟨u, hexec.trans (congrArg _ hgo), henters⟩

/-! ### The emergency (R67, R72, R126) -/

/-- A lane with a context is HELD at once, its travelling members REST and their trajectories abandoned. -/
theorem emergencyHold_eq {c : MotionContext} (hc : s.context l = some c) (hs : (s.lane l).state ≠ .held) :
    emergencyHold l s = emitAll [.laneState l (s.lane l).state .held .estop]
      { s with
        axes := s.axes.mapIdx (fun a ax =>
          if a ∈ (s.lane l).claimSet ∧ (ax.state = .moving ∨ ax.state = .stopping) then
            { ax with state := .rest, arriving := false } else ax)
        stops := s.stops.mapIdx (fun a r =>
          if a ∈ (s.lane l).claimSet ∧ ((s.axis a).state = .moving ∨ (s.axis a).state = .stopping) then none else r)
        contexts := s.contexts.set l none
        lanes := s.lanes.modify l (fun ln => { ln with
          state := .held, haltCause := .estop, holdLatch := false
          plan := ln.plan.map (fun p => { p with frozen := c.profileTime }) }) } := by
  have hdropped : dropContext l (recordHalt l .estop (brakeMembers l s)) =
      ((brakeMembers l s).setContext l none).updLane l (fun ln => { ln with
        haltCause := .estop, plan := ln.plan.map (fun p => { p with frozen := c.profileTime }) }) := by
    have hctx : (recordHalt l .estop (brakeMembers l s)).context l = some c := hc
    rw [dropContext, hctx, recordHalt, updLane_updLane]
    rfl
  have hheld := changeState_behind (s := (brakeMembers l s).setContext l none) (l := l) [] (st := .held)
    (fun ln => { ln with haltCause := .estop, holdLatch := false
                         plan := ln.plan.map (fun p => { p with frozen := c.profileTime }) }) hs
  rw [emitAll_nil] at hheld
  rw [emergencyHold, hdropped, clearHold, updLane_updLane, hheld]
  simp only [brakeMembers, travelling_iff]
  rfl

/-- Settles O24: the delivery is taken off the inbox and acts by the lane's state. -/
theorem the_emergency_brakes_every_lane_in_motion : Obligations.the_emergency_brakes_every_lane_in_motion := by
  intro l s hm
  set v := s.updLane l (fun ln => { ln with inbox := ln.inbox.erase .emergency }) with hv
  have htaken : exec (.emergency l) s = .next (emergencyLane l v) :=
    congrArg Host.Outcome.next (takeDelivery_takes (emergencyLane l) hm)
  have hlane : v.lane l = { s.lane l with inbox := (s.lane l).inbox.erase .emergency } := lane_updLane_same _ _ _
  have hstate : (v.lane l).state = (s.lane l).state := by rw [hlane]
  have hresume : (v.lane l).resume = (s.lane l).resume := by rw [hlane]
  have hlanes (f : Lane → Lane) : v.lanes.modify l f =
      s.lanes.modify l (fun ln => f { ln with inbox := ln.inbox.erase .emergency }) := Table.modify_modify _ _ _ _
  rw [htaken, ← hstate, ← hresume]
  have hplanning (hs : (v.lane l).state = .planning) : emergencyLane l v = planningHalt l .estop v := by
    simp only [emergencyLane, hs]
  refine ⟨fun hs => ?_, fun hs hr => ?_, fun hs hr => ?_, fun c hs hc => ?_⟩
  · simp only [List.mem_cons, List.not_mem_nil, or_false] at hs
    rcases hs with hs | hs | hs | hs <;> simp only [emergencyLane, hs]
  · rw [hplanning hs, (planningHalt_does v l .estop hs).1 hr, hlanes]
    rfl
  · rw [hplanning hs, (planningHalt_does v l .estop hs).2 hr, hlanes]
    rfl
  · have hhold : emergencyLane l v = emergencyHold l v ∧ (v.lane l).state ≠ .held := by
      simp only [List.mem_cons, List.not_mem_nil, or_false] at hs
      rcases hs with hs | hs | hs <;> simp [emergencyLane, hs]
    have hclaim : (v.lane l).claimSet = (s.lane l).claimSet := by rw [hlane]
    rw [hhold.1, emergencyHold_eq (s := v) hc hhold.2, hlanes, hclaim]
    rfl

end Sys2Proof.Machine


namespace Sys2Proof.Machine

-- Declarations are elaborated one at a time: the threads of the whole text would pass the limit of the check.
set_option Elab.async false

variable {s t u : State} {l k : LaneId} {a b : AxisId}

/-! ### GO (R61 to R63) -/

section
variable {p : Console} {r : Refused}

theorem goLane_starts {v : State} (hs : (s.lane l).state ∈ [LaneState.ready, .held, .follow])
    (hgo : goChecks l (some p) s = .ok v) :
    goLane p l s = (enterPlanning l (decide ((s.lane l).state = .held)) v, .ok []) := by
  simp only [List.mem_cons, List.not_mem_nil, or_false] at hs
  rcases hs with hs | hs | hs <;> simp [goLane, hs, hgo]

theorem goLane_refused (hs : (s.lane l).state ∈ [LaneState.ready, .held]) (hgo : goChecks l (some p) s = .error r) :
    goLane p l s = (s, r.answer) := by
  simp only [List.mem_cons, List.not_mem_nil, or_false] at hs
  rcases hs with hs | hs <;> simp only [goLane, hs, hgo]

theorem goLane_ends_wait (hs : (s.lane l).state = .follow) (hgo : goChecks l (some p) s = .error r) :
    goLane p l s = (endFollow l s, r.answer) := by
  simp only [goLane, hs, hgo]

theorem goLane_wrongState (hs : (s.lane l).state ∈ [LaneState.idle, .planning, .releasing, .running, .stopping]) :
    goLane p l s = (s, .refuse .wrongState) := by
  simp only [List.mem_cons, List.not_mem_nil, or_false] at hs
  rcases hs with hs | hs | hs | hs | hs <;> simp only [goLane, hs]

end

/-- Settles O33, by the lane's state and the first check of R61 that fails. -/
theorem go_starts_the_current_step : Obligations.go_starts_the_current_step := by
  intro p tag lane l s hl hc ht
  refine ⟨fun hs h => ?_, fun r hs h => ?_, fun r hs h => ?_, fun hs => ?_⟩
  · have hne : (s.lane l).state ≠ .planning := by
      intro he
      simp [he] at hs
    obtain ⟨v, u, hgo, hplanning, henters, hmessages⟩ :=
      enterPlanning_emitAll (decide ((s.lane l).state = .held)) [] hne h
    rw [emitAll_nil] at hgo
    have hact := (onOwnLane_own hl hc).trans (goLane_starts hs hgo)
    rw [hplanning] at hact
    exact ⟨u, serve_posting ht hact (congrArg Messages.posted hmessages), henters⟩
  · exact serve_quiet ht ((onOwnLane_own hl hc).trans (goLane_refused hs (goChecks_refused h))) rfl
  · have hact := (onOwnLane_own hl hc).trans (goLane_ends_wait hs (goChecks_refused h))
    rw [endFollow_eq hs] at hact
    exact congrArg Host.Outcome.next ((serve_of_taken ht).trans (finish_eq hact rfl))
  · exact serve_refused ht ((onOwnLane_own hl hc).trans (goLane_wrongState hs))

/-! ### LOAD and CLEAR LANE (R58 to R60) -/

/-- The record of a READY lane with a step loaded (R59). -/
def loadedLane (r : StepRef) (ln : Lane) : Lane :=
  { ln with state := .ready, base := some r, current := some r, repeatRemaining := ln.repeatSetting, seqEnd := false
            haltCause := .none }

/-- A load is one update of the lane's record, with its event when the lane was not READY (R56, R59). -/
theorem loadStep_eq (r : StepRef) : loadStep l r s = emitAll
    (if (s.lane l).state = .ready then [] else [.laneState l (s.lane l).state .ready .none])
    (s.updLane l (loadedLane r)) := by
  rw [loadStep, changeState_events, lane_updLane_same, updLane_updLane]
  rfl

/-- A HELD lane without its axes and its plan record (R59, R60). -/
theorem letGo_updLane (f : Lane → Lane) : (letGo l s).updLane l f = { s with
    axes := disowned l s.axes
    lanes := s.lanes.modify l (fun ln => f { ln with plan := none, claimSet := [] }) } := by
  simp only [letGo, release_eq, State.updLane, Table.modify_modify]

theorem letGo_state : ((letGo l s).lane l).state = (s.lane l).state := by
  simp [letGo, release_eq, State.lane, State.updLane]

section
variable {p : Console} {step : Half} {n : StepNo}

theorem stepOf_of_gt (h : 511 < step.toNat) : stepOf step = none := dif_neg (by omega)

theorem loadLane_badArg (h : 511 < step.toNat) : loadLane step l s = (s, .refuse .badArg) := by
  simp only [loadLane, stepOf_of_gt h]

theorem loadLane_loads (hn : stepOf step = some n) (hs : (s.lane l).state ∈ [LaneState.idle, .ready])
    (hp : (s.cues.slots.get n).isSome = true) : loadLane step l s = (loadStep l (.numbered n) s, .ok []) := by
  have hpresent : (s.cues.slots.get n).isNone = false := by rw [Option.isNone_eq_false_iff]; exact hp
  simp only [List.mem_cons, List.not_mem_nil, or_false] at hs
  rcases hs with hs | hs <;> simp [loadLane, hn, hs, hpresent]

theorem loadLane_lets_go (hn : stepOf step = some n) (hs : (s.lane l).state = .held)
    (hp : (s.cues.slots.get n).isSome = true) :
    loadLane step l s = (loadStep l (.numbered n) (letGo l s), .ok []) := by
  have hpresent : (s.cues.slots.get n).isNone = false := by rw [Option.isNone_eq_false_iff]; exact hp
  simp [loadLane, hn, hs, hpresent]

theorem loadLane_wrongState (hn : stepOf step = some n)
    (hs : (s.lane l).state ∈ [LaneState.planning, .releasing, .running, .stopping, .follow]) :
    loadLane step l s = (s, .refuse .wrongState) := by
  simp only [List.mem_cons, List.not_mem_nil, or_false] at hs
  rcases hs with hs | hs | hs | hs | hs <;> simp only [loadLane, hn, hs]

theorem loadLane_noStep (hn : stepOf step = some n) (hs : (s.lane l).state ∈ [LaneState.idle, .ready, .held])
    (hp : s.cues.slots.get n = none) : loadLane step l s = (s, .refuse .noStep) := by
  simp only [List.mem_cons, List.not_mem_nil, or_false] at hs
  rcases hs with hs | hs | hs <;> simp [loadLane, hn, hs, hp]

end

theorem clearLane_idle (hs : (s.lane l).state = .idle) : clearLane l s = (recordHalt l .none s, .ok []) := by
  simp only [clearLane, hs]

/-- CLEAR LANE in READY, HELD and FOLLOW: one change, and the event of the lane that leaves its state (R56, R60). -/
theorem clearLane_clears (hs : (s.lane l).state ∈ [LaneState.ready, .held, .follow]) :
    clearLane l s = (emitAll [.laneState l (s.lane l).state .idle .none]
      { s with
        axes := disowned l s.axes
        lanes := s.lanes.modify l (fun ln => { ln with
          state := .idle, plan := none, claimSet := [], holdLatch := false, haltCause := .none
          followDue := false, decrements := 0 }) }, .ok []) := by
  have hne : (s.lane l).state ≠ .idle := by
    intro he
    simp [he] at hs
  have hcleared : clearLane l s = (changeState l .idle ((letGo l s).updLane l (fun ln =>
      { ln with holdLatch := false, haltCause := .none, followDue := false, decrements := 0 })), .ok []) := by
    simp only [List.mem_cons, List.not_mem_nil, or_false] at hs
    rcases hs with hs | hs | hs <;> simp only [clearLane, hs]
  rw [hcleared, changeState_events, lane_updLane_same, letGo_state, if_neg hne, updLane_updLane, letGo_updLane]

theorem clearLane_busy (hs : (s.lane l).state ∈ [LaneState.planning, .releasing, .running, .stopping]) :
    clearLane l s = (s, .refuse .busy) := by
  simp only [List.mem_cons, List.not_mem_nil, or_false] at hs
  rcases hs with hs | hs | hs | hs <;> simp only [clearLane, hs]

/-- Settles O30, by the lane's state and the slot of the step. -/
theorem a_lane_is_loaded_and_cleared : Obligations.a_lane_is_loaded_and_cleared := by
  intro p tag lane l s hl hc
  have hown (act : LaneId → State → State × Answer) : onOwnLane p lane act s = act l s := onOwnLane_own hl hc
  refine ⟨fun step ht h => serve_refused ht ((hown _).trans (loadLane_badArg h)),
    fun step n ht hn => ⟨fun hs hp => ?_, fun hs hp => ?_,
      fun hs => serve_refused ht ((hown _).trans (loadLane_wrongState hn hs)),
      fun hs hp => serve_refused ht ((hown _).trans (loadLane_noStep hn hs hp))⟩,
    fun ht => ⟨fun hs => serve_ok ht ((hown _).trans (clearLane_idle hs)) rfl,
      fun hs => serve_posting ht ((hown _).trans (clearLane_clears hs)) rfl,
      fun hs => serve_refused ht ((hown _).trans (clearLane_busy hs))⟩⟩
  · have hact := (hown _).trans (loadLane_loads hn hs hp)
    rw [loadStep_eq] at hact
    refine (serve_posting ht hact rfl).trans ?_
    simp only [List.mem_cons, List.not_mem_nil, or_false] at hs
    rcases hs with hs | hs <;> simp [hs] <;> rfl
  · have hact := (hown _).trans (loadLane_lets_go hn hs hp)
    rw [loadStep_eq, letGo_state, if_neg (by simp [hs]), hs, letGo_updLane] at hact
    exact serve_posting ht hact rfl

end Sys2Proof.Machine


namespace Sys2Proof.Machine

-- Declarations are elaborated one at a time: the threads of the whole text would pass the limit of the check.
set_option Elab.async false

variable {s t u : State} {l k : LaneId} {a b : AxisId}

/-! ### What a write of a setpoint leaves (R11, R147 to R149) -/

/-- Every lane is as it was but for what its inbox holds. -/
def InboxesOnly (s t : State) : Prop := ∀ k : LaneId, t.lane k = { s.lane k with inbox := (t.lane k).inbox }

theorem InboxesOnly.refl (s : State) : InboxesOnly s s := fun _ => rfl

theorem InboxesOnly.trans (h : InboxesOnly s t) (h' : InboxesOnly t u) : InboxesOnly s u := fun k =>
  (h' k).trans (congrArg (fun ln : Lane => { ln with inbox := (u.lane k).inbox }) (h k))

theorem InboxesOnly.state (h : InboxesOnly s t) (k : LaneId) : (t.lane k).state = (s.lane k).state := by rw [h k]

theorem InboxesOnly.foldl {α : Type} (f : State → α → State) (hf : ∀ s x, InboxesOnly s (f s x)) (xs : List α)
    (s : State) : InboxesOnly s (xs.foldl f s) := by
  induction xs generalizing s with
  | nil => exact .refl s
  | cons x rest ih => exact (hf s x).trans (ih (f s x))

theorem inboxesOnly_deliver (m : LaneMessage) : InboxesOnly s (s.deliver l m) := fun k => by
  rw [lane_deliver]
  split
  · next e => subst e; rfl
  · rfl

theorem inboxesOnly_sendTrip (n : PairId) : InboxesOnly s (sendTrip a n s) := by
  unfold sendTrip
  split
  · exact .refl s
  · next pr _ =>
    have hdelivered (v : State) : InboxesOnly v ((pairOwners s pr).foldl (fun t l => t.deliver l (.trip n)) v) :=
      .foldl _ (fun _ _ => inboxesOnly_deliver _) _ v
    dsimp only
    split
    · exact hdelivered (s.emit _)
    · exact hdelivered s

theorem inboxesOnly_noteWrite (byMotion : Bool) : InboxesOnly s (noteWrite byMotion a s) :=
  InboxesOnly.foldl (fun t n => sendTrip a n t) (fun _ n => inboxesOnly_sendTrip n) _ s

theorem inboxesOnly_moveSetpoint (v : Nat) : InboxesOnly s (moveSetpoint a v s) :=
  inboxesOnly_noteWrite (s := s.updAxis a _) true

theorem moveSetpoint_frame (a : AxisId) (v : Nat) (s : State) : { moveSetpoint a v s with
    axes := s.axes, lanes := s.lanes, pairs := s.pairs, messages := s.messages } = s := by
  obtain ⟨lanes, pairs, messages, h⟩ :=
    noteWrite_shape (s.updAxis a (fun ax => { ax with previous := ax.setpoint, setpoint := some v })) a true
  rw [moveSetpoint, h]
  rfl

theorem moveSetpoint_axis_other (v : Nat) (hb : b ≠ a) : (moveSetpoint a v s).axis b = s.axis b := by
  rw [moveSetpoint, State.axis, noteWrite_axes]
  exact (axis_updAxis _ _ _ _).trans (if_neg hb.symm)

/-! ### What an end test leaves (R71) -/

theorem endTest_frame (l : LaneId) (s : State) :
    { endTest l s with lanes := s.lanes, contexts := s.contexts, messages := s.messages } = s := by
  unfold endTest
  split
  · exact congrArg (fun t : State => { t with lanes := s.lanes, contexts := s.contexts, messages := s.messages })
      (changeState_frame (dropContext l (s.updLane l (fun ln => { ln with holdLatch := false }))) l .held)
  · rfl

theorem endTest_other (hk : k ≠ l) : (endTest l s).lane k = s.lane k ∧ (endTest l s).context k = s.context k := by
  have hupd (t : State) (f : Lane → Lane) : (t.updLane l f).lane k = t.lane k :=
    (lane_updLane _ _ _ _).trans (if_neg hk.symm)
  unfold endTest
  split
  · rw [changeState_events]
    exact ⟨(hupd _ _).trans ((hupd _ _).trans (hupd _ _)), (Table.get_set _ _ _ _).trans (if_neg hk.symm)⟩
  · exact ⟨rfl, rfl⟩

/-- The end test of the lane that owns an axis, when one does. -/
def ownerTest (owner : Option LaneId) (s : State) : State :=
  match owner with
  | some l => endTest l s
  | none => s

theorem ownerTest_frame (owner : Option LaneId) (s : State) :
    { ownerTest owner s with lanes := s.lanes, contexts := s.contexts, messages := s.messages } = s := by
  cases owner with
  | none => rfl
  | some l => exact endTest_frame l s

theorem ownerTest_other {owner : Option LaneId} (hk : owner ≠ some k) :
    (ownerTest owner s).lane k = s.lane k ∧ (ownerTest owner s).context k = s.context k := by
  cases owner with
  | none => exact ⟨rfl, rfl⟩
  | some l => exact endTest_other (fun e => hk (congrArg some e.symm))

theorem ownerTest_idle {owner : Option LaneId} (h : ∀ l, owner = some l → (s.lane l).state ≠ .stopping) :
    ownerTest owner s = s := by
  cases owner with
  | none => rfl
  | some l => exact if_neg (fun hs => h l rfl hs.1)

/-! ### A step of a stop trajectory (R117, R118) -/

section
variable (a : AxisId) (r : StopRecord) (cfg : AxisConfig) (v : Nat) (s : State)

/-- Where the step ends, and whether a soft limit clamped it there (R117, R118). -/
def stepTarget : Nat × Bool := stopTarget cfg r.direction v (stopMovement r.velocity r.rampFloor (r.index + 1))

/-- The TARGET_CLIPPED of the first clamped step of a trajectory (R118). -/
def clipEvents : List EventBody :=
  if (stepTarget r cfg v).2 = true ∧ r.posted = false then
    [.stopClipped a (s.axis a).owner (if r.direction = .down then cfg.low else cfg.high)]
  else []

/-- The step's record and its write. -/
def stepWritten : State :=
  moveSetpoint a (stepTarget r cfg v).1 (State.setStop (emitAll (clipEvents a r cfg v s) s) a
    (some { r with index := r.index + 1, due := false, posted := r.posted || (stepTarget r cfg v).2 }))

/-- The axis at REST without a record, behind the last step's write. -/
def stepEnded : State :=
  let u := stepWritten a r cfg v s
  { u with
    axes := u.axes.modify a (fun ax => { ax with state := .rest, arriving := false })
    stops := u.stops.set a none }

theorem stopLimit_eq (dir : Direction) : stopLimit cfg dir = if dir = .down then cfg.low else cfg.high := by
  cases dir <;> rfl

/-- A step is its write, and at the last index REST and the owner's end test. -/
theorem trajectoryStep_eq : trajectoryStep a r cfg v s =
    if r.rampFloor ≤ r.index + 1 then ownerTest (s.axis a).owner (stepEnded a r cfg v s)
    else stepWritten a r cfg v s := by
  have hclip : emitAll (clipEvents a r cfg v s) s =
      if (stepTarget r cfg v).2 && !r.posted then s.emit (.stopClipped a (s.axis a).owner (stopLimit cfg r.direction))
      else s := by
    rw [clipEvents, stopLimit_eq]
    simp only [Bool.and_eq_true, Bool.not_eq_true']
    split
    · rfl
    · exact emitAll_nil s
  have hended : stepEnded a r cfg v s = (setAxisState a .rest (stepWritten a r cfg v s)).setStop a none := rfl
  rw [hended, stepWritten, hclip]
  rfl

theorem stopTarget_up (movement : Nat) : stopTarget cfg .up v movement =
    (min (v + movement) (cfg.high * 65536), decide (cfg.high * 65536 < v + movement)) := by
  have hunit : Config.unit = 65536 := rfl
  simp only [stopTarget, hunit]
  split
  · next h => rw [min_eq_right h.le, decide_eq_true h]
  · next h => rw [min_eq_left (not_lt.1 h), decide_eq_false h]

theorem stopTarget_down (movement : Nat) : stopTarget cfg .down v movement =
    (max (v - movement) (cfg.low * 65536), decide (v < cfg.low * 65536 + movement)) := by
  have hunit : Config.unit = 65536 := rfl
  simp only [stopTarget, hunit]
  split
  · next h => rw [max_eq_right (by omega), decide_eq_true h]
  · next h => rw [max_eq_left (by omega), decide_eq_false h]

theorem stepWritten_axis : (stepWritten a r cfg v s).axis a =
    { s.axis a with previous := (s.axis a).setpoint, setpoint := some (stepTarget r cfg v).1 } :=
  moveSetpoint_axis _ _ _

theorem stepWritten_other (hb : b ≠ a) : (stepWritten a r cfg v s).axis b = s.axis b ∧
    (stepWritten a r cfg v s).stop b = s.stop b := by
  refine ⟨moveSetpoint_axis_other _ hb, ?_⟩
  have hstops := congrArg State.stops (moveSetpoint_frame a (stepTarget r cfg v).1
    (State.setStop (emitAll (clipEvents a r cfg v s) s) a
      (some { r with index := r.index + 1, due := false, posted := r.posted || (stepTarget r cfg v).2 })))
  exact (congrArg (Table.get · b) hstops).trans ((Table.get_set _ _ _ _).trans (if_neg hb.symm))

theorem stepWritten_inboxes : InboxesOnly s (stepWritten a r cfg v s) :=
  inboxesOnly_moveSetpoint (s := State.setStop (emitAll (clipEvents a r cfg v s) s) a _) _

theorem stepWritten_frame : { stepWritten a r cfg v s with
    axes := s.axes, stops := s.stops, lanes := s.lanes, pairs := s.pairs, messages := s.messages } = s :=
  congrArg (fun t : State => { t with axes := s.axes, stops := s.stops, messages := s.messages })
    (moveSetpoint_frame a (stepTarget r cfg v).1 (State.setStop (emitAll (clipEvents a r cfg v s) s) a
      (some { r with index := r.index + 1, due := false, posted := r.posted || (stepTarget r cfg v).2 })))

theorem stepWritten_contexts : (stepWritten a r cfg v s).contexts = s.contexts := by
  have h := congrArg State.contexts (stepWritten_frame a r cfg v s)
  exact h

end

/-- What the statement says of the axes, the lanes and the rest of the state once a step is made. -/
structure StopStepKept (a : AxisId) (w v : Nat) (s t : State) : Prop where
  written : (t.axis a).setpoint = some w ∧ (t.axis a).previous = some v
  others : ∀ b : AxisId, b ≠ a → t.axis b = s.axis b ∧ t.stop b = s.stop b
  lanes : ∀ k : LaneId, (s.axis a).owner ≠ some k →
    t.context k = s.context k ∧ t.lane k = { s.lane k with inbox := (t.lane k).inbox }
  frame : { t with axes := s.axes, stops := s.stops, lanes := s.lanes, contexts := s.contexts, pairs := s.pairs
                   messages := s.messages } = s

section
variable {r : StopRecord} {cfg : AxisConfig} {v : Nat}

theorem stepWritten_kept (hv : (s.axis a).setpoint = some v) :
    StopStepKept a (stepTarget r cfg v).1 v s (stepWritten a r cfg v s) where
  written := by
    rw [stepWritten_axis, hv]
    exact ⟨rfl, rfl⟩
  others _ hb := stepWritten_other a r cfg v s hb
  lanes k _ := ⟨congrArg (Table.get · k) (stepWritten_contexts a r cfg v s), stepWritten_inboxes a r cfg v s k⟩
  frame := congrArg (fun t : State => { t with contexts := s.contexts }) (stepWritten_frame a r cfg v s)

/-- REST without a record changes the axis's own state alone. -/
theorem StopStepKept.ended {w : Nat} (h : StopStepKept a w v s u) : StopStepKept a w v s
    { u with
      axes := u.axes.modify a (fun ax => { ax with state := .rest, arriving := false })
      stops := u.stops.set a none } where
  written := by
    have hax : ({ u with
        axes := u.axes.modify a (fun ax => { ax with state := .rest, arriving := false })
        stops := u.stops.set a none } : State).axis a = { u.axis a with state := .rest, arriving := false } :=
      Table.get_modify_same _ _ _
    rw [hax]
    exact h.written
  others b hb := ⟨((Table.get_modify _ _ _ _).trans (if_neg hb.symm)).trans (h.others b hb).1,
    ((Table.get_set _ _ _ _).trans (if_neg hb.symm)).trans (h.others b hb).2⟩
  lanes := h.lanes
  frame := h.frame

/-- The owner's end test changes its own lane alone. -/
theorem StopStepKept.tested {w : Nat} (h : StopStepKept a w v s u) :
    StopStepKept a w v s (ownerTest (s.axis a).owner u) := by
  set t := ownerTest (s.axis a).owner u with ht
  have hframe := ownerTest_frame (s.axis a).owner u
  rw [← ht] at hframe
  have haxes := congrArg State.axes hframe
  have hstops := congrArg State.stops hframe
  have haxis (b : AxisId) : t.axis b = u.axis b := congrArg (Table.get · b) haxes
  have hstop (b : AxisId) : t.stop b = u.stop b := congrArg (Table.get · b) hstops
  refine ⟨by rw [haxis]; exact h.written, fun b hb => by rw [haxis, hstop]; exact h.others b hb, fun k hk => ?_, ?_⟩
  · obtain ⟨hlane, hcontext⟩ := ownerTest_other (s := u) hk
    rw [ht, hlane, hcontext]
    exact h.lanes k hk
  · exact (congrArg (fun x : State => { x with
      axes := s.axes, stops := s.stops, lanes := s.lanes, contexts := s.contexts, pairs := s.pairs
      messages := s.messages }) hframe).trans h.frame

theorem trajectoryStep_kept (hv : (s.axis a).setpoint = some v) :
    StopStepKept a (stepTarget r cfg v).1 v s (trajectoryStep a r cfg v s) := by
  rw [trajectoryStep_eq]
  split
  · exact (stepWritten_kept hv).ended.tested
  · exact stepWritten_kept hv

/-- A lane's state is not what a stop step writes. -/
theorem stepEnded_state : ((stepEnded a r cfg v s).lane l).state = (s.lane l).state :=
  (stepWritten_inboxes a r cfg v s).state l

end

theorem exec_stopTrajectoryStep {r : StopRecord} {cfg : AxisConfig} {v : Nat} (hr : s.stop a = some r)
    (hcfg : (s.axis a).config = some cfg) (hv : (s.axis a).setpoint = some v) :
    exec (.stopTrajectoryStep a) s = .next (if r.due then trajectoryStep a r cfg v s else s) := by
  show Host.Outcome.next (stopStep a s) = _
  simp only [stopStep, hr, hcfg, hv]

/-- Settles O15: a step is its write, and at the last index REST and the owner's end test. -/
theorem a_stop_step_decelerates_inside_the_limits : Obligations.a_stop_step_decelerates_inside_the_limits := by
  intro a s r cfg v hr hcfg hv
  rw [exec_stopTrajectoryStep hr hcfg hv]
  refine ⟨fun hdue => by rw [hdue]; rfl, fun hdue => ?_⟩
  obtain ⟨hwritten, hothers, hlanes, hframe⟩ := trajectoryStep_kept (r := r) (cfg := cfg) hv
  refine ⟨trajectoryStep a r cfg v s, stepWritten a r cfg v s, (stepTarget r cfg v).1,
    stopMovement r.velocity r.rampFloor (r.index + 1), (stepTarget r cfg v).2, congrArg Host.Outcome.next (if_pos hdue),
    rfl, fun hdir => ?_, fun hdir => ?_, fun hdir => ?_, rfl, fun hindex => ?_, fun hindex => ?_, hwritten.1, hwritten.2,
    hothers, hlanes, hframe⟩
  · rw [stepTarget, hdir, stopTarget_up]
    exact ⟨rfl, rfl⟩
  · rw [stepTarget, hdir, stopTarget_down]
    exact ⟨rfl, rfl⟩
  · rw [stepTarget, hdir]
    exact ⟨rfl, rfl⟩
  · rw [trajectoryStep_eq, if_neg (Nat.not_le.2 hindex)]
  · rw [trajectoryStep_eq, if_pos hindex]
    refine ⟨stepEnded a r cfg v s, rfl, fun l ho hs => ?_, fun hidle => ?_⟩
    · rw [ho]
      exact endTest_does _ l (stepEnded_state.trans hs)
    · exact ownerTest_idle (fun l ho => by rw [stepEnded_state]; exact hidle l ho)

end Sys2Proof.Machine

namespace Sys2Proof.Machine

-- Declarations are elaborated one at a time: the threads of the whole text would pass the limit of the check.
set_option Elab.async false

/-! ### The limits of a moving member (R90 to R94) -/

theorem velocityLimit_pos {vmax cap : Nat} (hv : 10 ≤ vmax) (hc : 1 ≤ cap) : 0 < velocityLimit vmax cap := by
  have h : 20000 ≤ vmax * Config.unit * cap :=
    calc 20000 ≤ 10 * Config.unit * 1 := by decide
      _ ≤ vmax * Config.unit * cap := Nat.mul_le_mul (Nat.mul_le_mul_right _ hv) hc
  exact Nat.div_pos h (by decide)

/-- A distance given at least its rounded-up time at a velocity is covered no faster than that velocity. -/
theorem div_le_of_ceilDiv_le {d v n : Nat} (hv : 0 < v) (h : ceilDiv d v ≤ n) : d / n ≤ v := by
  have htime : d ⌈/⌉ v ≤ n := by rwa [Nat.ceilDiv_eq_add_pred_div]
  exact Nat.div_le_of_le_mul (Nat.mul_comm v n ▸ (ceilDiv_le_iff_le_mul hv).1 htime)

section
variable {j : PlanJob} {m : MemberInput}

theorem moves_of_distance (hd : m.distance ≠ 0) : m.moves = true := decide_eq_true hd

theorem rs_le_ramp (j : PlanJob) : j.rs ≤ j.ramp := (largest_foldl _ j.rs).1

theorem rampFloor_le_ramp (hm : m ∈ j.members) (hd : m.distance ≠ 0) : m.rampFloor ≤ j.ramp :=
  (largest_foldl _ j.rs).2.1 _ (List.mem_map_of_mem (List.mem_filter.2 ⟨hm, moves_of_distance hd⟩))

/-- With a member that moves, the duration is the largest that R93 lists. -/
theorem duration_largest (hm : m ∈ j.members) (hd : m.distance ≠ 0) : Largest j.duration j.tn
    ((j.members.filter (·.moves)).map (fun m => m.delay + m.minimumSpan j.ramp)) := by
  have hany : j.members.any (·.moves) = true := List.any_eq_true.2 ⟨m, hm, moves_of_distance hd⟩
  rw [PlanJob.duration, if_pos hany]
  exact largest_foldl _ j.tn

/-- A moving member's delay and minimum span fit into the group duration (R93). -/
theorem minimumSpan_fits (hm : m ∈ j.members) (hd : m.distance ≠ 0) : m.delay + m.minimumSpan j.ramp ≤ j.duration :=
  (duration_largest hm hd).2.1 _ (List.mem_map_of_mem (List.mem_filter.2 ⟨hm, moves_of_distance hd⟩))

theorem planMember_span (r t : Nat) (hd : m.distance ≠ 0) : (planMember r t m).span = t - m.delay :=
  if_pos (moves_of_distance hd)

theorem planMember_cruise (r t : Nat) (hd : m.distance ≠ 0) :
    (planMember r t m).cruise = m.distance / ((planMember r t m).span - r) := by
  rw [planMember_span r t hd]
  exact if_pos (moves_of_distance hd)

/-- What is left of a span of at least the minimum after one ramp lets the cruise velocity stay within the limit (R94). -/
theorem cruise_le_velocityLimit {r t : Nat} (hd : m.distance ≠ 0) (hv : 0 < velocityLimit m.vmax m.cap)
    (ht : m.delay + m.minimumSpan r ≤ t) : (planMember r t m).cruise ≤ velocityLimit m.vmax m.cap := by
  have hmin : r + ceilDiv m.distance (velocityLimit m.vmax m.cap) ≤ m.minimumSpan r := Nat.le_max_right _ _
  rw [planMember_cruise r t hd, planMember_span r t hd]
  exact div_le_of_ceilDiv_le hv (by omega)

end

/-- Settles O14: the minimum span of the member lies inside the group duration, and holds two ramps and its travel. -/
theorem a_planned_member_obeys_its_limits : Obligations.a_planned_member_obeys_its_limits := by
  intro j m hm hd _ hvmax hcap
  have hfits := minimumSpan_fits hm hd
  have hramps : 2 * j.ramp ≤ m.minimumSpan j.ramp := Nat.le_max_left _ _
  have hspan := planMember_span j.ramp j.duration hd
  refine ⟨rampFloor_le_ramp hm hd, rs_le_ramp j, (duration_largest hm hd).1, by omega, by omega,
    cruise_le_velocityLimit hd (velocityLimit_pos hvmax hcap) hfits, ?_⟩
  rw [planMember_cruise _ _ hd]
  exact Nat.div_mul_le_self _ _

end Sys2Proof.Machine

namespace Sys2Proof.Machine

-- Declarations are elaborated one at a time: the threads of the whole text would pass the limit of the check.
set_option Elab.async false

variable {s t : State} {l k : LaneId} {j : PlanJob}

/-! ### What a snapshot reads (R84, R95) -/

/-- All that a snapshot reads is the same: the axes, the pairs, the stored steps, and of each lane its resume flag, its
current step and its plan. -/
structure SameForSnapshot (s t : State) : Prop where
  axes : t.axes = s.axes
  pairs : t.pairs = s.pairs
  cues : t.cues = s.cues
  resume : ∀ k : LaneId, (t.lane k).resume = (s.lane k).resume
  current : ∀ k : LaneId, (t.lane k).current = (s.lane k).current
  plan : ∀ k : LaneId, (t.lane k).plan = (s.lane k).plan

theorem SameForSnapshot.axis (h : SameForSnapshot s t) (a : AxisId) : t.axis a = s.axis a :=
  congrArg (Table.get · a) h.axes

theorem SameForSnapshot.memberInput (h : SameForSnapshot s t) (resume : Bool) :
    memberInput t resume = memberInput s resume := by
  funext m
  rw [Machine.memberInput, h.axis]
  rfl

theorem SameForSnapshot.outsideReference (h : SameForSnapshot s t) (a : AxisId) :
    outsideReference t a = outsideReference s a := by
  have hplanned (k : LaneId) : plannedTarget t k a = plannedTarget s k a := by
    rw [plannedTarget, h.plan k]
    rfl
  simp only [Machine.outsideReference, h.axis, hplanned]

theorem SameForSnapshot.pairInputs (h : SameForSnapshot s t) (members : List AxisId) :
    pairInputs t members = pairInputs s members := by
  have hactive (pr : ClashPair) : pairActive t pr = pairActive s pr := by
    simp only [pairActive, State.present, h.axis]
  have hpair : pairInput t members = pairInput s members := by
    funext n
    simp only [pairInput, h.pairs, hactive, h.outsideReference]
  rw [Machine.pairInputs, hpair]
  rfl

theorem SameForSnapshot.snapshot (h : SameForSnapshot s t) (l : LaneId) : snapshot t l = snapshot s l := by
  simp only [Machine.snapshot, h.resume, currentStep_congr h.cues (h.current l), h.memberInput, h.pairInputs]

/-! ### The one result of a plan (R85, R87, R95) -/

/-- VOID names the first member that fails the void check (R87). -/
theorem planOutcome_void {m : MemberInput} {before after : List MemberInput} (hj : j.members = before ++ m :: after)
    (hbefore : ∀ x ∈ before, ¬ FailsVoidCheck s j.lane x) (hm : FailsVoidCheck s j.lane m) :
    planOutcome s j = .void m.axis := by
  have hfirst : j.members.find? (memberVoid s j.lane) = some m :=
    List.find?_eq_some_iff_append.2 ⟨(memberVoid_iff s j.lane m).2 hm, before, after, hj, fun x hx => by
      simpa [← memberVoid_iff] using hbefore x hx⟩
  simp only [planOutcome, voidMember, hfirst, Option.map_some]

section
variable (hpass : ∀ m ∈ j.members, ¬ FailsVoidCheck s j.lane m)
include hpass

theorem voidMember_eq_none : voidMember s j = none := by
  have hfind : j.members.find? (memberVoid s j.lane) = none :=
    List.find?_eq_none.2 fun m hm h => hpass m hm ((memberVoid_iff s j.lane m).1 h)
  rw [voidMember, hfind]
  rfl

theorem planOutcome_tooLong (hd : Config.durationMax < j.duration) : planOutcome s j = .tooLong := by
  simp only [planOutcome, voidMember_eq_none hpass, if_pos hd]

/-- INTERLOCK names the first pair whose end positions break its gap (R95). -/
theorem planOutcome_interlock {pr : PairInput} {before after : List PairInput} (hd : j.duration ≤ Config.durationMax)
    (hj : j.pairs = before ++ pr :: after) (hbefore : ∀ x ∈ before, ¬ BreaksGap j x) (hpr : BreaksGap j pr) :
    planOutcome s j = .interlock pr.pair := by
  have hfirst : j.pairs.find? j.breaks = some pr :=
    List.find?_eq_some_iff_append.2 ⟨(breaks_iff j pr).2 hpr, before, after, hj, fun x hx => by
      simpa [← breaks_iff] using hbefore x hx⟩
  simp only [planOutcome, voidMember_eq_none hpass, if_neg (Nat.not_lt.2 hd), hfirst]

theorem planOutcome_ok (hd : j.duration ≤ Config.durationMax) (hpairs : ∀ x ∈ j.pairs, ¬ BreaksGap j x) :
    planOutcome s j = .ok j.plan := by
  have hnone : j.pairs.find? j.breaks = none :=
    List.find?_eq_none.2 fun x hx h => hpairs x hx ((breaks_iff j x).1 h)
  simp only [planOutcome, voidMember_eq_none hpass, if_neg (Nat.not_lt.2 hd), hnone]

end

/-! ### A result delivered (R65, R85) -/

theorem deliverResult_frame (l : LaneId) (r : PlanResult) (s : State) :
    { deliverResult l r s with lanes := s.lanes } = s := by
  unfold deliverResult
  split <;> rfl

theorem deliverResult_lane_same {r : PlanResult} (hs : (s.lane l).state = .planning) :
    (deliverResult l r s).lane l = { s.lane l with planResult := some r } := by
  rw [deliverResult, if_pos hs, lane_updLane_same]

theorem deliverResult_lane_other {r : PlanResult} (hk : k ≠ l) : (deliverResult l r s).lane k = s.lane k := by
  unfold deliverResult
  split
  · rw [lane_updLane, if_neg hk.symm]
  · rfl

theorem deliverResult_unawaited {r : PlanResult} (hs : (s.lane l).state ≠ .planning) : deliverResult l r s = s :=
  if_neg hs

/-- A result delivered is nothing that a snapshot reads. -/
theorem sameForSnapshot_deliverResult (l : LaneId) (r : PlanResult) (s : State) :
    SameForSnapshot s (deliverResult l r s) := by
  have hread {α : Type} (f : Lane → α) (hf : ∀ ln : Lane, f { ln with planResult := some r } = f ln) (k : LaneId) :
      f ((deliverResult l r s).lane k) = f (s.lane k) := by
    unfold deliverResult
    split
    · rw [lane_updLane]
      split
      · next e => subst e; exact hf _
      · rfl
    · rfl
  have hframe := deliverResult_frame l r s
  have haxes := congrArg State.axes hframe
  have hpairs := congrArg State.pairs hframe
  have hcues := congrArg State.cues hframe
  exact ⟨haxes, hpairs, hcues, hread Lane.resume (fun _ => rfl), hread Lane.current (fun _ => rfl),
    hread Lane.plan (fun _ => rfl)⟩

/-! ### PLAN_COMPLETION (R85) -/

/-- The plan in progress has left the Planner. -/
def plannerFreed (s : State) : State := { s with planner := { s.planner with inProgress := none } }

/-- The completed plan has left the Planner, and its result is delivered unless it was withdrawn (R85, R86). -/
def planHandedOver (s : State) (j : PlanJob) : State :=
  if j.withdrawn then plannerFreed s else deliverResult j.lane (planOutcome s j) (plannerFreed s)

theorem planHandedOver_withdrawn (hw : j.withdrawn = true) : planHandedOver s j = plannerFreed s := if_pos hw

theorem planHandedOver_standing (hw : j.withdrawn = false) :
    planHandedOver s j = deliverResult j.lane (planOutcome s j) (plannerFreed s) :=
  if_neg (by simp [hw])

theorem planHandedOver_cases (s : State) (j : PlanJob) : planHandedOver s j = plannerFreed s ∨
    planHandedOver s j = deliverResult j.lane (planOutcome s j) (plannerFreed s) :=
  (Bool.eq_false_or_eq_true j.withdrawn).imp planHandedOver_withdrawn planHandedOver_standing

theorem planHandedOver_frame (s : State) (j : PlanJob) :
    { planHandedOver s j with lanes := s.lanes } = plannerFreed s := by
  obtain e | e := planHandedOver_cases s j <;> rw [e]
  · rfl
  · exact deliverResult_frame j.lane _ (plannerFreed s)

theorem planHandedOver_planner (s : State) (j : PlanJob) :
    (planHandedOver s j).planner = { s.planner with inProgress := none } := by
  have h := congrArg State.planner (planHandedOver_frame s j)
  exact h

theorem sameForSnapshot_planHandedOver (s : State) (j : PlanJob) : SameForSnapshot s (planHandedOver s j) := by
  obtain e | e := planHandedOver_cases s j <;> rw [e]
  · exact ⟨rfl, rfl, rfl, fun _ => rfl, fun _ => rfl, fun _ => rfl⟩
  · obtain ⟨haxes, hpairs, hcues, hresume, hcurrent, hplan⟩ :=
      sameForSnapshot_deliverResult j.lane (planOutcome s j) (plannerFreed s)
    exact ⟨haxes, hpairs, hcues, hresume, hcurrent, hplan⟩

theorem planHandedOver_other (hk : k ≠ j.lane) : (planHandedOver s j).lane k = s.lane k := by
  obtain e | e := planHandedOver_cases s j <;> rw [e]
  · rfl
  · exact deliverResult_lane_other (s := plannerFreed s) hk

/-- A lane no longer in PLANNING does not take the result (R65). -/
theorem planHandedOver_unawaited (hw : j.withdrawn = false) (hs : (s.lane j.lane).state ≠ .planning) :
    planHandedOver s j = plannerFreed s := by
  rw [planHandedOver_standing hw, deliverResult_unawaited (s := plannerFreed s) hs]

theorem planHandedOver_delivered (hw : j.withdrawn = false) (hs : (s.lane j.lane).state = .planning) :
    (planHandedOver s j).lane j.lane = { s.lane j.lane with planResult := some (planOutcome s j) } := by
  rw [planHandedOver_standing hw]
  exact deliverResult_lane_same (s := plannerFreed s) hs

theorem startService_frame (s : State) : { startService s with planner := s.planner } = s := by
  obtain e | ⟨l, queue, e⟩ := startService_cases s <;> rw [e]

theorem startService_lanes (s : State) : (startService s).lanes = s.lanes := by
  have h := congrArg State.lanes (startService_frame s)
  exact h

theorem startService_empty (hq : s.planner.queue = []) : startService s = s := by
  unfold startService
  rw [hq]
  cases s.planner.inProgress <;> rfl

theorem startService_serves {rest : List LaneId} (hidle : s.planner.inProgress = none)
    (hq : s.planner.queue = l :: rest) :
    (startService s).planner = { s.planner with queue := rest, inProgress := some (snapshot s l) } := by
  unfold startService
  rw [hidle, hq]

theorem completePlan_eq (hj : s.planner.inProgress = some j) :
    completePlan s = startService (planHandedOver s j) := by
  simp only [completePlan, hj]
  rfl

/-- The lanes after PLAN_COMPLETION are those of the plan handed over: a new plan begun is the Planner's alone. -/
theorem completePlan_lanes (hj : s.planner.inProgress = some j) :
    (completePlan s).lanes = (planHandedOver s j).lanes := by
  rw [completePlan_eq hj, startService_lanes]

theorem completePlan_lane (hj : s.planner.inProgress = some j) (k : LaneId) :
    (completePlan s).lane k = (planHandedOver s j).lane k :=
  congrArg (Table.get · k) (completePlan_lanes hj)

theorem completePlan_frame (hj : s.planner.inProgress = some j) :
    { completePlan s with planner := s.planner, lanes := s.lanes } = s := by
  rw [completePlan_eq hj]
  calc ({ startService (planHandedOver s j) with planner := s.planner, lanes := s.lanes } : State)
      = { planHandedOver s j with planner := s.planner, lanes := s.lanes } :=
        congrArg (fun t : State => { t with planner := s.planner, lanes := s.lanes }) (startService_frame _)
    _ = s := congrArg (fun t : State => { t with planner := s.planner }) (planHandedOver_frame s j)

/-- With nobody waiting the Planner is idle. -/
theorem completePlan_empty (hj : s.planner.inProgress = some j) (hq : s.planner.queue = []) :
    (completePlan s).planner = { s.planner with inProgress := none } := by
  have hplanner := planHandedOver_planner s j
  rw [completePlan_eq hj, startService_empty (by rw [hplanner]; exact hq), hplanner]

/-- The oldest lane waiting is served on a snapshot of the state before: the result delivered changes none of it (R84). -/
theorem completePlan_serves {rest : List LaneId} (hj : s.planner.inProgress = some j) (hq : s.planner.queue = l :: rest) :
    (completePlan s).planner = { s.planner with queue := rest, inProgress := some (snapshot s l) } := by
  have hplanner := planHandedOver_planner s j
  rw [completePlan_eq hj, startService_serves (l := l) (rest := rest) (by rw [hplanner]) (by rw [hplanner]; exact hq),
    (sameForSnapshot_planHandedOver s j).snapshot, hplanner]

/-! ### PLAN_WITHDRAWAL (R86) -/

theorem exec_planWithdrawal (h : l ∈ s.planner.withdrawals) :
    exec (.planWithdrawal l) s = .next { s with planner := withdraw l s.planner } :=
  congrArg Host.Outcome.next (if_pos h)

/-- Settles O28: the plan handed over carries the one result of the checks in their order, and the next plan's snapshot
does not depend on it. -/
theorem a_plan_completes_with_one_result_or_is_withdrawn :
    Obligations.a_plan_completes_with_one_result_or_is_withdrawn := by
  refine ⟨fun s j hj => ⟨completePlan s, rfl, fun hw => ?_, fun hw hs => ?_, fun hw hs => ?_, fun k hk => ?_,
    completePlan_empty hj, fun l rest hq => ⟨_, completePlan_serves hj hq, snapshot_taken s l⟩, completePlan_frame hj⟩,
    fun l s h => exec_planWithdrawal h⟩
  · rw [completePlan_lanes hj, planHandedOver_withdrawn hw]
    rfl
  · rw [completePlan_lanes hj, planHandedOver_unawaited hw hs]
    rfl
  · refine ⟨planOutcome s j, by rw [completePlan_lane hj, planHandedOver_delivered hw hs],
      fun m before after hmem hbefore hm => planOutcome_void hmem hbefore hm,
      fun hpass => ⟨j.plan, plan_made j, fun hlong => planOutcome_tooLong hpass hlong, fun hshort => ⟨?_, ?_⟩⟩⟩
    · exact fun pr before after hpairs hbefore hpr => planOutcome_interlock hpass hshort hpairs hbefore hpr
    · exact planOutcome_ok hpass hshort
  · rw [completePlan_lane hj, planHandedOver_other hk]

end Sys2Proof.Machine

namespace Sys2Proof.Machine

-- Declarations are elaborated one at a time: the threads of the whole text would pass the limit of the check.
set_option Elab.async false

variable {s t u : State} {l k : LaneId} {a b : AxisId}

/-! ### A lane that releases or stops (R100, R103, R116) -/

section
variable {c : MotionContext}

/-- Work that is not due, having been done at this period start, changes nothing. -/
theorem generatorWork_idle (hc : s.context l = some c) (hdue : c.due = false) : generatorWork l s = s := by
  simp only [generatorWork, hc, hdue]
  rfl

theorem generatorWork_releasing (hc : s.context l = some c) (hdue : c.due = true)
    (hstate : (s.lane l).state = .releasing) : generatorWork l s = releaseWork l c s := by
  simp only [generatorWork, hc, hdue, hstate, if_true]

theorem generatorWork_stopping (hc : s.context l = some c) (hdue : c.due = true)
    (hstate : (s.lane l).state = .stopping) :
    generatorWork l s = s.setContext l (some { c with due := false }) := by
  simp only [generatorWork, hc, hdue, hstate, if_true]

theorem generatorWork_running {plan : PlanRecord} (hc : s.context l = some c) (hdue : c.due = true)
    (hstate : (s.lane l).state = .running) (hplan : (s.lane l).plan = some plan) :
    generatorWork l s = runningWork l c plan s := by
  simp only [generatorWork, hc, hdue, hstate, hplan, if_true]

/-- Below the timeout the release count alone advances (R103). -/
theorem releaseWork_counts (h : c.releaseCount < 199) :
    releaseWork l c s = s.setContext l (some { c with releaseCount := c.releaseCount + 1, due := false }) := by
  have hcount : min (c.releaseCount + 1) Config.releaseTimeout = c.releaseCount + 1 :=
    min_eq_left (Nat.le_of_lt (Nat.add_lt_add_right h 1))
  have hbelow : c.releaseCount + 1 ≠ Config.releaseTimeout := Nat.ne_of_lt (Nat.add_lt_add_right h 1)
  simp [releaseWork, hcount, hbelow]

theorem untracked_ne_nil (h : c.members.any (fun m => !m.tracking) = true) : c.untracked ≠ [] := by
  obtain ⟨m, hm, hclear⟩ := List.any_eq_true.1 h
  exact List.ne_nil_of_mem (List.mem_map_of_mem (List.mem_filter.2 ⟨hm, hclear⟩))

/-- At the timeout the expiry is reported with the members whose marks are clear (R103). -/
theorem releaseWork_expires (hcount : c.releaseCount = 199) (hclear : c.untracked ≠ []) :
    releaseWork l c s = s.setContext l (some { c with
      releaseCount := 200, due := false, expiry := some c.untracked }) := by
  have htimeout : Config.releaseTimeout = 200 := rfl
  simp [releaseWork, hcount, hclear, htimeout]

end

/-- Settles O12: the work of each lane state, by the due mark. -/
theorem a_releasing_lane_counts_to_its_timeout : Obligations.a_releasing_lane_counts_to_its_timeout := by
  intro l s c hc
  refine ⟨fun hdue hstate hcount => ?_, fun hdue hstate hcount hclear => ?_, fun hdue hstate => ?_, fun hdue => ?_⟩
  · exact congrArg Host.Outcome.next ((generatorWork_releasing hc hdue hstate).trans (releaseWork_counts hcount))
  · exact congrArg Host.Outcome.next
      ((generatorWork_releasing hc hdue hstate).trans (releaseWork_expires hcount (untracked_ne_nil hclear)))
  · exact congrArg Host.Outcome.next (generatorWork_stopping hc hdue hstate)
  · exact congrArg Host.Outcome.next (generatorWork_idle hc hdue)

end Sys2Proof.Machine

namespace Sys2Proof.Table

/-! ### A record replaced twice, or by itself -/

theorem set_set {n : Nat} {α : Type} (t : Table n α) (i : Fin n) (x y : α) : (t.set i x).set i y = t.set i y :=
  ext_get fun j => by by_cases hj : i = j <;> simp [get_set, hj]

theorem set_get_same {n : Nat} {α : Type} (t : Table n α) (i : Fin n) {x : α} (h : t.get i = x) : t.set i x = t :=
  ext_get fun j => by
    by_cases hj : i = j
    · subst hj; simp [h]
    · simp [get_set, hj]

end Sys2Proof.Table

namespace Sys2Proof.Machine

-- Declarations are elaborated one at a time: the threads of the whole text would pass the limit of the check.
set_option Elab.async false

variable {s t u : State} {l k : LaneId} {a b : AxisId}

/-! ### What a write of a setpoint does not read -/

/-- The state without its arrival requests and motion contexts, neither of which a write of a setpoint reads. -/
def stripped (s : State) : State :=
  { s with axes := s.axes.map (fun ax => { ax with arriving := false }), contexts := Table.fill 8 none }

theorem stripped_axis : (stripped s).axis a = { s.axis a with arriving := false } := Table.get_map _ _ _

theorem pairGap_stripped (pr : ClashPair) : pairGap (stripped s) pr = pairGap s pr := by
  simp only [pairGap, stripped_axis, reference]

theorem pairWatches_stripped (pr : ClashPair) : pairWatches (stripped s) a pr = pairWatches s a pr := by
  simp only [pairWatches, pairActive, State.present, stripped_axis]

theorem pairTrips_stripped (pr : ClashPair) : pairTrips (stripped s) a pr = pairTrips s a pr := by
  simp only [pairTrips, pairWatches_stripped, pairGap_stripped]

theorem pairOwners_stripped (pr : ClashPair) : pairOwners (stripped s) pr = pairOwners s pr := by
  simp only [pairOwners, stripped_axis]

theorem pairConcerned_stripped (pr : ClashPair) : pairConcerned (stripped s) pr = pairConcerned s pr := by
  simp only [pairConcerned, pairOwners_stripped]
  rfl

theorem sendTrip_stripped (n : PairId) : sendTrip a n (stripped s) = stripped (sendTrip a n s) := by
  have hpairs : (stripped s).pairs = s.pairs := rfl
  unfold sendTrip
  rw [hpairs]
  cases s.pairs.get n with
  | none => rfl
  | some pr =>
    dsimp only
    rw [pairOwners_stripped, pairConcerned_stripped, pairGap_stripped]
    have hdelivered (v : State) : (pairOwners s pr).foldl (fun t l => t.deliver l (.trip n)) (stripped v) =
        stripped ((pairOwners s pr).foldl (fun t l => t.deliver l (.trip n)) v) :=
      List.foldl_hom stripped (fun _ _ => rfl)
    rw [← hdelivered, apply_ite stripped]
    rfl

theorem regap_stripped : regap a (stripped s) = stripped (regap a s) := by
  simp only [regap, pairWatches_stripped, pairGap_stripped]
  rfl

theorem noteWrite_stripped (byMotion : Bool) :
    noteWrite byMotion a (stripped s) = stripped (noteWrite byMotion a s) := by
  have hpairs : (stripped s).pairs = s.pairs := rfl
  simp only [noteWrite, pairTrips_stripped, hpairs]
  rw [List.foldl_hom stripped (fun _ _ => sendTrip_stripped _), regap_stripped]

/-- A change of one axis record, its arrival request apart. -/
theorem stripped_updAxis {f g : Axis → Axis}
    (h : ∀ ax : Axis, { f ax with arriving := false } = g { ax with arriving := false }) :
    stripped (s.updAxis a f) = (stripped s).updAxis a g := by
  have haxes : (s.axes.modify a f).map (fun ax => { ax with arriving := false }) =
      (s.axes.map (fun ax => { ax with arriving := false })).modify a g :=
    Table.ext_get fun j => by
      by_cases hj : a = j
      · subst hj; simp [h]
      · simp [Table.get_modify_of_ne _ _ hj]
  exact congrArg (fun axes => { s with axes := axes, contexts := Table.fill 8 none }) haxes

theorem moveSetpoint_stripped (v : Nat) : moveSetpoint a v (stripped s) = stripped (moveSetpoint a v s) := by
  rw [moveSetpoint, moveSetpoint, ← noteWrite_stripped,
    stripped_updAxis (g := fun ax => { ax with previous := ax.setpoint, setpoint := some v }) (fun _ => rfl)]

/-- States that differ in nothing but arrival requests and contexts. -/
theorem with_axes_contexts_of_stripped (h : stripped t = stripped u) :
    { t with axes := u.axes, contexts := u.contexts } = u :=
  congrArg (fun v : State => { v with axes := u.axes, contexts := u.contexts }) h

/-! ### One member's evaluation (R107, R108, R112) -/

/-- The axis of a member takes its evaluation: it is MOVING and has not arrived (R108). -/
def takesEvaluation (s : State) (m : PlanMember) : Bool :=
  decide ((s.axis m.axis).state = .moving ∧ (s.axis m.axis).arriving = false)

section
variable (l : LaneId) (ramp time : Nat)

/-- The setpoint of a member's trapezoid at a profile time (R107, R108). -/
def plannedSetpoint (m : PlanMember) : Nat :=
  m.position (covered m.cruise m.distance ramp m.span (memberTime time m.delay))

/-- The write of a member's setpoint, with its gap check. -/
def writeMember (s : State) (m : PlanMember) : State := moveSetpoint m.axis (plannedSetpoint ramp time m) s

/-- The member's own time has reached the end of its span (R112). -/
def spanEnded (m : PlanMember) : Bool := decide (((256 * m.span : Nat) : Int) ≤ memberTime time m.delay)

/-- The axis record of a member that has been evaluated. -/
def evaluatedAxis (m : PlanMember) (ax : Axis) : Axis :=
  { ax with
    previous := ax.setpoint
    setpoint := some (plannedSetpoint ramp time m)
    arriving := ax.arriving || spanEnded time m }

/-- What an evaluation does once the member's axis takes it. -/
def evaluation (s : State) (m : PlanMember) : State :=
  (noteEvaluation l m.axis (memberTime time m.delay) (writeMember ramp time s m)).updAxis m.axis
    (fun ax => { ax with arriving := ax.arriving || spanEnded time m })

end

theorem updAxis_of_id {f : Axis → Axis} (h : ∀ ax, f ax = ax) : s.updAxis a f = s := by
  have haxes : s.axes.modify a f = s.axes :=
    Table.ext_get fun j => by by_cases hj : a = j <;> simp [Table.get_modify, h, hj]
  exact congrArg (fun axes => { s with axes := axes }) haxes

section
variable {ramp time : Nat} {m : PlanMember} {c : MotionContext}

theorem evaluateMember_eq : evaluateMember l ramp time s m =
    if takesEvaluation s m then evaluation l ramp time s m else s := by
  simp only [evaluateMember, takesEvaluation, decide_eq_true_iff]
  refine if_congr Iff.rfl ?_ rfl
  unfold evaluation spanEnded
  split
  · next hend => simp only [hend, decide_true, Bool.or_true]; rfl
  · next hend =>
    rw [updAxis_of_id (fun ax => by rw [decide_eq_false hend, Bool.or_false])]
    rfl

theorem evaluation_axis : (evaluation l ramp time s m).axis m.axis = evaluatedAxis ramp time m (s.axis m.axis) := by
  rw [evaluation, axis_updAxis_same]
  have hwritten : (noteEvaluation l m.axis (memberTime time m.delay) (writeMember ramp time s m)).axis m.axis =
      { s.axis m.axis with previous := (s.axis m.axis).setpoint, setpoint := some (plannedSetpoint ramp time m) } :=
    moveSetpoint_axis s m.axis _
  rw [hwritten]
  rfl

theorem evaluation_axis_other (hb : b ≠ m.axis) : (evaluation l ramp time s m).axis b = s.axis b :=
  ((axis_updAxis _ _ _ _).trans (if_neg hb.symm)).trans (moveSetpoint_axis_other _ hb)

theorem writeMember_contexts : (writeMember ramp time s m).contexts = s.contexts := by
  have hcontexts := congrArg State.contexts (moveSetpoint_frame m.axis (plannedSetpoint ramp time m) s)
  exact hcontexts

/-- A context with the last evaluation of one axis's member recorded. -/
def MotionContext.noted (c : MotionContext) (a : AxisId) (sr : Int) : MotionContext :=
  { c with members := c.members.map (fun x => if x.axis = a then { x with lastEval := some sr } else x) }

theorem evaluation_contexts (hc : s.context l = some c) : (evaluation l ramp time s m).contexts =
    s.contexts.set l (some (c.noted m.axis (memberTime time m.delay))) := by
  have hcontext : (writeMember ramp time s m).context l = some c := by
    rw [State.context, writeMember_contexts]
    exact hc
  have hnote : (evaluation l ramp time s m).contexts = (noteEvaluation l m.axis (memberTime time m.delay)
    (writeMember ramp time s m)).contexts := rfl
  rw [hnote, noteEvaluation, hcontext, State.setContext_contexts, writeMember_contexts]
  rfl

/-- Beside arrival requests and contexts, an evaluation is its write. -/
theorem evaluation_stripped :
    stripped (evaluation l ramp time s m) = writeMember ramp time (stripped s) m := by
  have harriving (v : State) :
      stripped (v.updAxis m.axis (fun ax => { ax with arriving := ax.arriving || spanEnded time m })) = stripped v :=
    (stripped_updAxis (g := fun ax => ax) (f := fun ax => { ax with arriving := ax.arriving || spanEnded time m })
      fun _ => rfl).trans (updAxis_of_id fun _ => rfl)
  rw [evaluation, harriving]
  exact (moveSetpoint_stripped _).symm

end

/-! ### The evaluations of a lane's members, in claim-set order -/

section
variable {ramp time : Nat} {c : MotionContext} {ms : List PlanMember}

theorem axis_ne_of_mem {m x : PlanMember} (hm : m.axis ∉ ms.map (·.axis)) (hx : x ∈ ms) : x.axis ≠ m.axis :=
  fun e => hm (List.mem_map.2 ⟨x, hx, e⟩)

/-- Members of different axes do not disturb each other: those that are evaluated are those that stood ready before. -/
theorem foldl_evaluateMember (hms : (ms.map (·.axis)).Nodup) : ms.foldl (evaluateMember l ramp time) s =
    (ms.filter (takesEvaluation s)).foldl (evaluation l ramp time) s := by
  induction ms generalizing s with
  | nil => rfl
  | cons m rest ih =>
    obtain ⟨hm, hrest⟩ := List.nodup_cons.1 hms
    rw [List.foldl_cons, evaluateMember_eq, List.filter_cons]
    split
    · have hsame : rest.filter (takesEvaluation (evaluation l ramp time s m)) = rest.filter (takesEvaluation s) :=
        List.filter_congr fun x hx => by
          rw [takesEvaluation, evaluation_axis_other (axis_ne_of_mem hm hx)]
          rfl
      rw [ih hrest, hsame, List.foldl_cons]
    · exact ih hrest

theorem evaluations_stripped : stripped (ms.foldl (evaluation l ramp time) s) =
    ms.foldl (writeMember ramp time) (stripped s) :=
  (List.foldl_hom stripped fun _ _ => evaluation_stripped.symm).symm

theorem writes_stripped : stripped (ms.foldl (writeMember ramp time) s) =
    ms.foldl (writeMember ramp time) (stripped s) :=
  (List.foldl_hom stripped fun _ _ => moveSetpoint_stripped _).symm

theorem evaluations_axis_other (hb : ∀ m ∈ ms, m.axis ≠ b) :
    (ms.foldl (evaluation l ramp time) s).axis b = s.axis b := by
  induction ms generalizing s with
  | nil => rfl
  | cons m rest ih =>
    rw [List.foldl_cons, ih (fun x hx => hb x (List.mem_cons_of_mem _ hx))]
    exact evaluation_axis_other (hb m List.mem_cons_self).symm

theorem evaluations_axis (hms : (ms.map (·.axis)).Nodup) {m : PlanMember} (hm : m ∈ ms) :
    (ms.foldl (evaluation l ramp time) s).axis m.axis = evaluatedAxis ramp time m (s.axis m.axis) := by
  induction ms generalizing s with
  | nil => cases hm
  | cons x rest ih =>
    obtain ⟨hx, hrest⟩ := List.nodup_cons.1 hms
    rw [List.foldl_cons]
    rcases List.mem_cons.1 hm with rfl | hmem
    · rw [evaluations_axis_other (fun y hy => axis_ne_of_mem hx hy), evaluation_axis]
    · rw [ih hrest hmem, evaluation_axis_other (axis_ne_of_mem hx hmem)]

/-- A context member with its last evaluation, where it is among the evaluated ones. -/
def notedMember (time : Nat) (ms : List PlanMember) (x : ContextMember) : ContextMember :=
  match ms.find? (fun m => decide (m.axis = x.axis)) with
  | some m => { x with lastEval := some (memberTime time m.delay) }
  | none => x

theorem notedMember_cons {m : PlanMember} (hm : m.axis ∉ ms.map (·.axis)) (x : ContextMember) :
    notedMember time ms (if x.axis = m.axis then { x with lastEval := some (memberTime time m.delay) } else x) =
      notedMember time (m :: ms) x := by
  by_cases hx : x.axis = m.axis
  · have hnone : ms.find? (fun y => decide (y.axis = m.axis)) = none :=
      List.find?_eq_none.2 fun y hy => by simpa using axis_ne_of_mem hm hy
    simp [notedMember, hx, hnone]
  · simp [notedMember, hx, Ne.symm hx]

theorem evaluations_contexts (hms : (ms.map (·.axis)).Nodup) (hc : s.context l = some c) :
    (ms.foldl (evaluation l ramp time) s).contexts =
      s.contexts.set l (some { c with members := c.members.map (notedMember time ms) }) := by
  induction ms generalizing s c with
  | nil =>
    have hsame : c.members.map (notedMember time []) = c.members := List.map_id _
    rw [hsame]
    exact (Table.set_get_same _ _ hc).symm
  | cons m rest ih =>
    obtain ⟨hm, hrest⟩ := List.nodup_cons.1 hms
    have hnoted := evaluation_contexts (ramp := ramp) (time := time) (m := m) hc
    have hcontext : (evaluation l ramp time s m).context l = some (c.noted m.axis (memberTime time m.delay)) := by
      rw [State.context, hnoted, Table.get_set_same]
    rw [List.foldl_cons, ih hrest hcontext, hnoted, Table.set_set]
    simp only [MotionContext.noted, List.map_map, Function.comp_def, notedMember_cons hm]

/-- The writes reach axis records, inboxes, last gaps and messages alone. -/
theorem writes_frame : { ms.foldl (writeMember ramp time) s with
    axes := s.axes, lanes := s.lanes, pairs := s.pairs, messages := s.messages } = s := by
  induction ms generalizing s with
  | nil => rfl
  | cons m rest ih =>
    exact (congrArg (fun v : State => { v with
      axes := s.axes, lanes := s.lanes, pairs := s.pairs, messages := s.messages })
      (ih (s := writeMember ramp time s m))).trans (moveSetpoint_frame _ _ _)

end

/-! ### The work of a running lane (R105, R106, R113) -/

/-- Within 2 of the requested rate the effective rate reaches it (R105). -/
theorem slew_reaches {effective requested : Nat} (hup : requested ≤ effective + 2) (hdown : effective ≤ requested + 2) :
    slew effective requested = requested := by
  have h : Config.rateSlew = 2 := rfl
  unfold slew
  split_ifs <;> omega

theorem slew_up {effective requested : Nat} (h : effective + 2 < requested) :
    slew effective requested = effective + 2 := by
  have h2 : Config.rateSlew = 2 := rfl
  unfold slew
  split_ifs <;> omega

theorem slew_down {effective requested : Nat} (h : requested + 2 < effective) :
    slew effective requested + 2 = effective := by
  have h2 : Config.rateSlew = 2 := rfl
  unfold slew
  split_ifs <;> omega

section
variable (l : LaneId) (c : MotionContext) (plan : PlanRecord) (s : State)

/-- The lane's rate at this period start (R105). -/
def newRate : Nat := slew (s.lane l).effectiveRate (s.lane l).requestedRate

/-- The lane's profile time at this period start (R106). -/
def newTime : Nat := advance c.profileTime (newRate l s) plan.duration

/-- The members that this period start's work evaluates (R108). -/
def evaluatedMembers : List PlanMember := plan.moving.filter (takesEvaluation s)

/-- The lane with its new rate. -/
def rated : State := s.updLane l (fun ln => { ln with effectiveRate := newRate l s })

/-- The writes of the lane's evaluations, behind its new rate. -/
def runningWrites : State :=
  (evaluatedMembers plan s).foldl (writeMember plan.ramp (newTime l c plan s)) (rated l s)

/-- The lane's context once its work is done. -/
def advancedContext : MotionContext :=
  { c with
    profileTime := newTime l c plan s
    members := c.members.map (notedMember (newTime l c plan s) (evaluatedMembers plan s))
    profileEnd := c.profileEnd || decide (newTime l c plan s = 256 * plan.duration)
    due := false }

/-- The evaluations, behind the new rate and profile time. -/
def runningEvaluations : State :=
  (evaluatedMembers plan s).foldl (evaluation l plan.ramp (newTime l c plan s))
    ((rated l s).setContext l (some { c with profileTime := newTime l c plan s, due := false }))

end

section
variable {c : MotionContext} {plan : PlanRecord}

theorem evaluatedMembers_nodup (hp : (plan.moving.map (·.axis)).Nodup) :
    ((evaluatedMembers plan s).map (·.axis)).Nodup :=
  hp.sublist (List.filter_sublist.map _)

/-- The evaluations leave the lane's context with its last evaluations, and no end of the profile yet. -/
theorem runningEvaluations_contexts (hp : (plan.moving.map (·.axis)).Nodup) :
    (runningEvaluations l c plan s).contexts =
      s.contexts.set l (some { advancedContext l c plan s with profileEnd := c.profileEnd }) :=
  (evaluations_contexts (evaluatedMembers_nodup hp) (context_setContext_same _ _ _)).trans (Table.set_set _ _ _ _)

/-- The work is the evaluations, and at the end of the profile its report. -/
theorem runningWork_eq (hp : (plan.moving.map (·.axis)).Nodup) : runningWork l c plan s =
    { runningEvaluations l c plan s with contexts := s.contexts.set l (some (advancedContext l c plan s)) } := by
  have hmembers : plan.moving.foldl (evaluateMember l plan.ramp (newTime l c plan s))
      ((rated l s).setContext l (some { c with profileTime := newTime l c plan s, due := false })) =
      runningEvaluations l c plan s := foldl_evaluateMember hp
  have hcontexts := runningEvaluations_contexts (s := s) (l := l) (c := c) hp
  have hcontext : (runningEvaluations l c plan s).context l =
      some { advancedContext l c plan s with profileEnd := c.profileEnd } := by
    rw [State.context, hcontexts, Table.get_set_same]
  have hwork : runningWork l c plan s =
      if newTime l c plan s = 256 * plan.duration then (runningEvaluations l c plan s).setContext l
        (((runningEvaluations l c plan s).context l).map (fun c => { c with profileEnd := true }))
      else runningEvaluations l c plan s := by
    rw [← hmembers]
    rfl
  rw [hwork, hcontext]
  split
  · next hend =>
    rw [State.setContext, hcontexts, Table.set_set]
    simp only [Option.map_some, advancedContext, hend, decide_true, Bool.or_true]
  · next hend =>
    have hkept : advancedContext l c plan s = { advancedContext l c plan s with profileEnd := c.profileEnd } := by
      simp only [advancedContext, hend, decide_false, Bool.or_false]
    rw [hkept, ← hcontexts]

/-- Beside arrival requests and contexts, the work is the new rate and the writes. -/
theorem runningWork_stripped (hp : (plan.moving.map (·.axis)).Nodup) :
    stripped (runningWork l c plan s) = stripped (runningWrites l c plan s) := by
  rw [runningWork_eq hp]
  exact evaluations_stripped.trans (writes_stripped (s := rated l s)).symm

theorem runningWork_writes (hp : (plan.moving.map (·.axis)).Nodup) :
    { runningWork l c plan s with
      axes := (runningWrites l c plan s).axes, contexts := (runningWrites l c plan s).contexts } =
        runningWrites l c plan s :=
  with_axes_contexts_of_stripped (runningWork_stripped hp)

/-- Every lane is as it was but for its inbox and the new rate. -/
theorem runningWork_inboxes (hp : (plan.moving.map (·.axis)).Nodup) :
    InboxesOnly (rated l s) (runningWork l c plan s) := by
  have hwork := congrArg State.lanes (runningWork_writes (s := s) (l := l) (c := c) hp)
  have hlanes : (runningWork l c plan s).lanes = (runningWrites l c plan s).lanes := hwork
  have hwrites : InboxesOnly (rated l s) (runningWrites l c plan s) :=
    .foldl _ (fun _ _ => inboxesOnly_moveSetpoint _) _ _
  intro k
  rw [State.lane, hlanes]
  exact hwrites k

theorem runningWork_frame (hp : (plan.moving.map (·.axis)).Nodup) : { runningWork l c plan s with
    lanes := s.lanes, contexts := s.contexts, axes := s.axes, pairs := s.pairs, messages := s.messages } = s := by
  have hwork := congrArg (fun v : State => { v with
    lanes := s.lanes, contexts := s.contexts, axes := s.axes, pairs := s.pairs, messages := s.messages })
    (runningWork_writes (s := s) (l := l) (c := c) hp)
  have hwrites := congrArg (fun v : State => { v with lanes := s.lanes, contexts := s.contexts })
    (writes_frame (ramp := plan.ramp) (time := newTime l c plan s) (ms := evaluatedMembers plan s) (s := rated l s))
  exact hwork.trans hwrites

theorem runningWork_axis_other (hp : (plan.moving.map (·.axis)).Nodup)
    (hb : ∀ m ∈ evaluatedMembers plan s, m.axis ≠ b) : (runningWork l c plan s).axis b = s.axis b := by
  rw [runningWork_eq hp]
  exact evaluations_axis_other hb

/-- An evaluated member had no arrival request outstanding, so it has one now just where its span has ended (R112). -/
theorem runningWork_axis (hp : (plan.moving.map (·.axis)).Nodup) {m : PlanMember} (hm : m ∈ evaluatedMembers plan s) :
    (runningWork l c plan s).axis m.axis = { s.axis m.axis with
      previous := (s.axis m.axis).setpoint
      setpoint := some (plannedSetpoint plan.ramp (newTime l c plan s) m)
      arriving := spanEnded (newTime l c plan s) m } := by
  obtain ⟨-, harriving⟩ : (s.axis m.axis).state = .moving ∧ (s.axis m.axis).arriving = false :=
    of_decide_eq_true (List.mem_filter.1 hm).2
  have haxis : (runningWork l c plan s).axis m.axis =
      evaluatedAxis plan.ramp (newTime l c plan s) m (s.axis m.axis) := by
    rw [runningWork_eq hp]
    exact evaluations_axis (evaluatedMembers_nodup hp) hm
  rw [haxis, evaluatedAxis, harriving, Bool.false_or]

theorem evaluatedMembers_eq : evaluatedMembers plan s = plan.members.filter (fun m => decide
    (m.distance ≠ 0 ∧ (s.axis m.axis).state = .moving ∧ (s.axis m.axis).arriving = false)) := by
  rw [evaluatedMembers, PlanRecord.moving, List.filter_filter]
  refine List.filter_congr fun m _ => ?_
  rw [takesEvaluation, Bool.and_comm, ← Bool.decide_and]

end

/-- Settles O11: the work is the new rate and the writes of the evaluated members, beside which it changes their arrival
requests and the lane's context alone. -/
theorem a_running_lane_is_advanced_along_its_plan : Obligations.a_running_lane_is_advanced_along_its_plan := by
  intro l s c plan hstate hplan hc hdue hp
  have hinboxes := runningWork_inboxes (s := s) (l := l) (c := c) hp
  refine ⟨runningWork l c plan s, runningWrites l c plan s, newRate l s, newTime l c plan s, evaluatedMembers plan s,
    congrArg Host.Outcome.next (generatorWork_running hc hdue hstate hplan), fun ⟨hup, hdown⟩ => slew_reaches hup hdown,
    slew_up, slew_down, rfl, evaluatedMembers_eq, rfl, runningWork_writes hp, ?_, ?_,
    fun m hm => runningWork_axis hp hm, fun b hb => runningWork_axis_other hp hb, fun k hk => ?_, runningWork_frame hp⟩
  · rw [runningWork_eq hp]
    rfl
  · have hlane := hinboxes l
    rwa [rated, lane_updLane_same] at hlane
  · have hlane := hinboxes k
    rwa [rated, lane_updLane, if_neg hk.symm] at hlane

end Sys2Proof.Machine

namespace Sys2Proof.Machine

-- Declarations are elaborated one at a time: the threads of the whole text would pass the limit of the check.
set_option Elab.async false

/-! ### The distance covered, region by region (Table 6-4, R109, R110) -/

section
variable {v d r span n : Nat}

theorem covered_delay {sr : Int} (h : sr ≤ 0) : covered v d r span sr = 0 := if_pos h

/-- From the departure on, the distance covered is read from the time passed since. -/
theorem covered_departed (hn : 0 < n) : covered v d r span n =
    if n ≤ 256 * r then v * (n * n) / (2 * r * 65536)
    else if n ≤ 256 * span - 256 * r then v * r / 2 + v * (n - 256 * r) / 256
    else if n < 256 * span then d - v * ((256 * span - n) * (256 * span - n)) / (2 * r * 65536)
    else d :=
  if_neg (by omega)

theorem covered_rampUp (hn : 0 < n) (h : n ≤ 256 * r) :
    covered v d r span n = v * (n * n) / (2 * r * 65536) := by
  rw [covered_departed hn, if_pos h]

theorem covered_cruise (hlow : 256 * r < n) (hhigh : n ≤ 256 * span - 256 * r) :
    covered v d r span n = v * r / 2 + v * (n - 256 * r) / 256 := by
  rw [covered_departed (by omega), if_neg (by omega), if_pos hhigh]

theorem covered_rampDown (hspan : 2 * r ≤ span) (hlow : 256 * span - 256 * r < n) (hhigh : n < 256 * span) :
    covered v d r span n = d - v * ((256 * span - n) * (256 * span - n)) / (2 * r * 65536) := by
  rw [covered_departed (by omega), if_neg (by omega), if_neg (by omega), if_pos hhigh]

theorem covered_arrived (hr : 0 < r) (hspan : 2 * r ≤ span) {sr : Int} (h : ((256 * span : Nat) : Int) ≤ sr) :
    covered v d r span sr = d := by
  obtain ⟨n, rfl⟩ := Int.eq_ofNat_of_zero_le (le_trans (Int.natCast_nonneg _) h)
  have hn : 256 * span ≤ n := Int.ofNat_le.1 h
  rw [covered_departed (by omega), if_neg (by omega), if_neg (by omega), if_neg (by omega)]

/-- A ramp's distance at a time within it is at most the whole ramp's. -/
theorem rampShare_le {x : Nat} (hr : 0 < r) (hx : x ≤ 256 * r) : v * (x * x) / (2 * r * 65536) ≤ v * r / 2 :=
  calc v * (x * x) / (2 * r * 65536)
      ≤ v * (256 * r * (256 * r)) / (2 * r * 65536) :=
        Nat.div_le_div_right (Nat.mul_le_mul_left v (Nat.mul_le_mul hx hx))
    _ = v * r * (r * 65536) / (2 * (r * 65536)) := by congr 1 <;> ring
    _ = v * r / 2 := Nat.mul_div_mul_right _ _ (by positivity)

theorem rampShare_mono {x y : Nat} (h : x ≤ y) : v * (x * x) / (2 * r * 65536) ≤ v * (y * y) / (2 * r * 65536) :=
  Nat.div_le_div_right (Nat.mul_le_mul_left v (Nat.mul_le_mul h h))

/-- Two ramps and the cruise between them fit into the distance (R94). -/
theorem cruise_and_ramps_fit (hspan : 2 * r ≤ span) (hd : v * (span - r) ≤ d) {x : Nat}
    (hx : x ≤ 256 * (span - 2 * r)) : v * r / 2 + v * x / 256 + v * r / 2 ≤ d := by
  have hcruise : v * x / 256 ≤ v * (span - 2 * r) :=
    Nat.div_le_of_le_mul (by rw [Nat.mul_left_comm]; exact Nat.mul_le_mul_left v hx)
  have hsplit : v * (span - r) = v * (span - 2 * r) + v * r := by
    rw [← Nat.mul_add]
    congr 1
    omega
  omega

/-- What is covered before the ramp-down leaves the ramp-down its distance. -/
theorem covered_leaves_rampDown (hr : 0 < r) (hspan : 2 * r ≤ span) (hd : v * (span - r) ≤ d) (hn : 0 < n)
    (hbefore : n ≤ 256 * span - 256 * r) : covered v d r span n + v * r / 2 ≤ d := by
  by_cases hup : n ≤ 256 * r
  · rw [covered_rampUp hn hup]
    have hshare : v * (n * n) / (2 * r * 65536) ≤ v * r / 2 := rampShare_le hr hup
    have hfit := cruise_and_ramps_fit hspan hd (x := 0) (Nat.zero_le _)
    omega
  · rw [covered_cruise (not_le.1 hup) hbefore]
    exact cruise_and_ramps_fit hspan hd (by omega)

/-- A moment of the ramp-down has covered no less than any moment before it. -/
theorem covered_mono_rampDown {m : Nat} (hr : 0 < r) (hspan : 2 * r ≤ span) (hd : v * (span - r) ≤ d) (hm : 0 < m)
    (hmn : m ≤ n) (hlow : 256 * span - 256 * r < n) (hhigh : n < 256 * span) :
    covered v d r span m ≤ covered v d r span n := by
  rw [covered_rampDown hspan hlow hhigh]
  by_cases hbefore : m ≤ 256 * span - 256 * r
  · have hleaves := covered_leaves_rampDown hr hspan hd hm hbefore
    have hshare : v * ((256 * span - n) * (256 * span - n)) / (2 * r * 65536) ≤ v * r / 2 :=
      rampShare_le hr (by omega)
    omega
  · rw [covered_rampDown hspan (not_le.1 hbefore) (hmn.trans_lt hhigh)]
    exact Nat.sub_le_sub_left (rampShare_mono (by omega)) d

/-- A moment of the cruise has covered no less than any moment before it. -/
theorem covered_mono_cruise {m : Nat} (hr : 0 < r) (hm : 0 < m) (hmn : m ≤ n) (hlow : 256 * r < n)
    (hhigh : n ≤ 256 * span - 256 * r) : covered v d r span m ≤ covered v d r span n := by
  rw [covered_cruise hlow hhigh]
  by_cases hup : m ≤ 256 * r
  · rw [covered_rampUp hm hup]
    exact (rampShare_le hr hup).trans (Nat.le_add_right _ _)
  · rw [covered_cruise (not_le.1 hup) (hmn.trans hhigh)]
    exact Nat.add_le_add_left (Nat.div_le_div_right (Nat.mul_le_mul_left v (by omega))) _

/-- Between two moments after the departure the distance covered does not decrease: by the region of the later one. -/
theorem covered_mono_departed {m : Nat} (hr : 0 < r) (hspan : 2 * r ≤ span) (hd : v * (span - r) ≤ d) (hm : 0 < m)
    (hmn : m ≤ n) : covered v d r span m ≤ covered v d r span n := by
  by_cases hup : n ≤ 256 * r
  · rw [covered_rampUp hm (hmn.trans hup), covered_rampUp (hm.trans_le hmn) hup]
    exact rampShare_mono hmn
  by_cases hcruise : n ≤ 256 * span - 256 * r
  · exact covered_mono_cruise hr hm hmn (not_le.1 hup) hcruise
  by_cases hdown : n < 256 * span
  · exact covered_mono_rampDown hr hspan hd hm hmn (not_le.1 hcruise) hdown
  · rw [covered_arrived hr hspan (Int.ofNat_le.2 (not_lt.1 hdown))]
    exact covered_le hspan hd _

theorem covered_mono (hr : 0 < r) (hspan : 2 * r ≤ span) (hd : v * (span - r) ≤ d) {x y : Int} (hxy : x ≤ y) :
    covered v d r span x ≤ covered v d r span y := by
  by_cases hx : x ≤ 0
  · rw [covered_delay hx]
    exact Nat.zero_le _
  · obtain ⟨m, rfl⟩ := Int.eq_ofNat_of_zero_le (not_le.1 hx).le
    obtain ⟨n, rfl⟩ := Int.eq_ofNat_of_zero_le ((not_le.1 hx).le.trans hxy)
    exact covered_mono_departed hr hspan hd (by omega) (by omega)

end

/-- Settles O13: the regions' formulas, and their order at the borders. -/
theorem the_distance_covered_never_turns_back : Obligations.the_distance_covered_never_turns_back := by
  intro v d r span hr hspan hd
  refine ⟨fun _ => covered_delay, fun _ => covered_rampUp, fun _ => covered_cruise, fun n hlow hhigh => ?_,
    fun _ => covered_arrived hr hspan, covered_le hspan hd, fun _ _ => covered_mono hr hspan hd⟩
  rw [covered_rampDown hspan hlow hhigh]
  have hshare : v * ((256 * span - n) * (256 * span - n)) / (2 * r * 65536) ≤ v * r / 2 := rampShare_le hr (by omega)
  have hfit := cruise_and_ramps_fit hspan hd (x := 0) (Nat.zero_le _)
  exact Nat.sub_add_cancel (by omega)

end Sys2Proof.Machine

namespace Sys2Proof.Machine

-- Declarations are elaborated one at a time: the threads of the whole text would pass the limit of the check.
set_option Elab.async false

variable {s t u : State} {l k : LaneId} {a b : AxisId}

/-! ### The next visit of the round (R114, R115, R153, R155) -/

theorem present_iff : s.present a = true ↔ (s.axis a).config ≠ none := Option.isSome_iff_ne_none

theorem not_present_iff : s.present a = false ↔ (s.axis a).config = none :=
  Option.isSome_eq_false_iff.trans Option.isNone_iff_eq_none

/-- The round visits the first present axis from its number on (R153). -/
theorem nextPresent_first {n : Nat} (hle : n ≤ a.val) (ha : (s.axis a).config ≠ none)
    (hbetween : ∀ b : AxisId, n ≤ b.val → b < a → (s.axis b).config = none) : nextPresent s n = some a := by
  refine find_finRange_first (by simp [hle, present_iff.2 ha]) fun b hb => ?_
  by_cases hn : n ≤ b.val
  · simp [not_present_iff.2 (hbetween b hn hb)]
  · simp [hn]

theorem nextPresent_none {n : Nat} (h : ∀ a : AxisId, n ≤ a.val → (s.axis a).config = none) :
    nextPresent s n = none := by
  refine List.find?_eq_none.2 fun a _ => ?_
  by_cases hn : n ≤ a.val
  · simp [not_present_iff.2 (h a hn)]
  · simp [hn]

/-- Outside a round, and while a slot is open, a visit changes nothing. -/
theorem driveRound_idle (h : s.link.round = none ∨ s.link.slot ≠ none) : driveRound s = s := by
  unfold driveRound
  split
  · next hround hslot =>
    rcases h with h | h
    · rw [h] at hround
      cases hround
    · exact absurd hslot h
  · rfl

section
variable {n : Nat} (hround : s.link.round = some n) (hslot : s.link.slot = none)
include hround hslot

/-- Past the last present axis the round ends. -/
theorem driveRound_ends (h : ∀ a : AxisId, n ≤ a.val → (s.axis a).config = none) :
    driveRound s = { s with link := { s.link with round := none } } := by
  simp only [driveRound, hround, hslot, nextPresent_none h]

theorem driveRound_sends {e : StationEntry} (hle : n ≤ a.val) (ha : (s.axis a).config ≠ none)
    (hbetween : ∀ b : AxisId, n ≤ b.val → b < a → (s.axis b).config = none) (he : s.station a = some e) :
    driveRound s = sendFrame a e s := by
  simp only [driveRound, hround, hslot, nextPresent_first hle ha hbetween, he]

end

theorem nextSequence_new {e : StationEntry} (h : e.frame = none) : nextSequence e = 0 := by
  rw [nextSequence, h]

theorem nextSequence_next {e : StationEntry} (h : e.frame ≠ none) : nextSequence e = e.sequence + 1 := by
  obtain ⟨f, hf⟩ := Option.ne_none_iff_exists'.1 h
  rw [nextSequence, hf]

theorem online_eq {e : StationEntry} (he : s.station a = some e) : s.online a = decide (e.state = .online) := by
  rw [State.online, he]

/-! Table 6-5 -/

theorem frameMode_identify (h : s.online a = false ∨ (s.axis a).state = .offline) : frameMode s a = .identify :=
  if_pos h

section
variable (hon : s.online a = true)
include hon

theorem frameMode_latched (hoff : (s.axis a).state ≠ .offline) (hlatch : s.latch = true) : frameMode s a = .brake := by
  simp [frameMode, hon, hoff, hlatch]

theorem frameMode_faulted {cause : FaultCause} (hlatch : s.latch = false) (hstate : (s.axis a).state = .faulted cause) :
    frameMode s a = .brake := by
  simp [frameMode, hon, hlatch, hstate]

theorem frameMode_travelling (hlatch : s.latch = false)
    (hstate : (s.axis a).state = .moving ∨ (s.axis a).state = .stopping) : frameMode s a = .follow := by
  rcases hstate with hstate | hstate <;> simp [frameMode, hon, hlatch, hstate]

theorem frameMode_rest (hlatch : s.latch = false) (hstate : (s.axis a).state = .rest) : frameMode s a = .hold := by
  simp [frameMode, hon, hlatch, hstate]

theorem frameMode_ne_identify (hoff : (s.axis a).state ≠ .offline) : frameMode s a ≠ .identify := by
  have hasked : ¬ (s.online a = false ∨ (s.axis a).state = .offline) := by simp [hon, hoff]
  rw [frameMode, if_neg hasked]
  cases s.latch
  · cases (s.axis a).state <;> nofun
  · nofun

end

/-- Every frame but IDENTIFY carries the setpoint in force (R115). -/
theorem frameSetpoint_some {mode : DriveMode} {v : Nat} (hmode : mode ≠ .identify) (hv : (s.axis a).setpoint = some v) :
    frameSetpoint s a mode = v := by
  cases mode with
  | identify => exact absurd rfl hmode
  | follow | hold | brake => rw [frameSetpoint, hv]; rfl

/-- Settles O48: the visit's axis is the first present one, and its frame's fields are read from Table 6-5. -/
theorem the_round_sends_the_next_axis_its_frame : Obligations.the_round_sends_the_next_axis_its_frame := by
  intro s
  refine ⟨fun h => congrArg Host.Outcome.next (driveRound_idle h), fun n hround hslot => ⟨fun h =>
    congrArg Host.Outcome.next (driveRound_ends hround hslot h), fun a e hle ha hbetween he => ?_⟩⟩
  refine ⟨frameMode s a, frameSetpoint s a (frameMode s a), nextSequence e,
    congrArg Host.Outcome.next (driveRound_sends hround hslot hle ha hbetween he), nextSequence_new, nextSequence_next,
    fun hidle => ?_, fun hon hoff => ?_⟩
  · have hmode : frameMode s a = .identify := frameMode_identify (by simpa [online_eq he] using hidle)
    rw [hmode]
    exact ⟨rfl, rfl⟩
  · have honline : s.online a = true := by simp [online_eq he, hon]
    refine ⟨fun v hv => frameSetpoint_some (frameMode_ne_identify honline hoff) hv, frameMode_latched honline hoff,
      fun hlatch => ⟨fun ⟨_, hstate⟩ => frameMode_faulted honline hlatch hstate,
        frameMode_travelling honline hlatch, frameMode_rest honline hlatch⟩⟩

end Sys2Proof.Machine

namespace Sys2Proof.Machine

-- Declarations are elaborated one at a time: the threads of the whole text would pass the limit of the check.
set_option Elab.async false

variable {s : State}

/-! ### The lines and the latch (R121 to R125, R131, R133) -/

theorem setLatch_set (source : Option Console) (h : s.latch = true) : setLatch source s = s :=
  if_pos h

/-- A clear latch is set with one event, and an emergency goes to every lane (R123). -/
theorem setLatch_clear (source : Option Console) (h : s.latch = false) :
    setLatch source s = emitAll [.estopSet source] (({ s with latch := true } : State).deliverAll .emergency) := by
  rw [setLatch, if_neg (by simp [h])]
  rfl

theorem qualify_idle {line : Line} (h : (s.lines.get (lineIndex line)).timing = false) : qualify line s = s :=
  if_neg (by simp [h])

/-- The end of a line's time gives its raw level to the qualified one and delivers the change (R121, R122). -/
theorem qualify_timed {line : Line} {high old : Bool} (h : s.lines.get (lineIndex line) = ⟨high, old, true⟩) :
    qualify line s = deliverChange line high (setLine line ⟨high, high, false⟩ s) := by
  simp only [qualify, h, if_true]

theorem clearEStop_stopActive (p : Console) (h : s.qualified .stopn = false) :
    clearEStop p s = (s, .refuse .stopActive) :=
  if_pos h

theorem clearEStop_clear (p : Console) (h : s.qualified .stopn = true) (hlatch : s.latch = false) :
    clearEStop p s = (s, .ok []) := by
  simp only [clearEStop, h, hlatch, Bool.true_eq_false, Bool.false_eq_true, if_false]

theorem clearEStop_set (p : Console) (h : s.qualified .stopn = true) (hlatch : s.latch = true) :
    clearEStop p s = (emitAll [.estopCleared p] { s with latch := false }, .ok []) := by
  simp only [clearEStop, h, hlatch, Bool.true_eq_false, if_false, if_true, emit_eq_emitAll]

/-- Settles O47: what a line's change delivers is read from Table 7-1, and both requests act on the latch alone. -/
theorem lines_are_qualified_and_the_latch_set_and_cleared :
    Obligations.lines_are_qualified_and_the_latch_set_and_cleared := by
  refine ⟨fun s => ⟨fun line high => rfl, fun line h => congrArg Host.Outcome.next (qualify_idle h),
    fun line high hline => ?_⟩, fun p tag s => ⟨fun ht => ⟨fun hlatch => ?_, fun hlatch => ?_⟩,
    fun ht => ⟨fun hstop => ?_, fun hstop hlatch => ?_, fun hstop hlatch => ?_⟩⟩⟩
  · have htimed : exec (.qualifiedChange line) s =
        .next (deliverChange line high (setLine line ⟨high, high, false⟩ s)) :=
      congrArg Host.Outcome.next (qualify_timed hline)
    rw [htimed]
    refine ⟨_, rfl, ?stopnSets, ?stopnSetAlready, ?enableLoss, ?holdAssertion, ?activeAgain, ?holdReleased⟩
    case stopnSets =>
      rintro rfl rfl hlatch
      exact congrArg Host.Outcome.next (setLatch_clear none hlatch)
    case stopnSetAlready =>
      rintro rfl rfl hlatch
      exact congrArg Host.Outcome.next (setLatch_set none hlatch)
    case enableLoss =>
      rintro c rfl rfl
      rfl
    case holdAssertion =>
      rintro n rfl rfl
      rfl
    case activeAgain =>
      rintro (rfl | ⟨c, rfl⟩) rfl <;> rfl
    case holdReleased =>
      rintro ⟨n, rfl⟩ rfl
      rfl
  · exact serve_posting ht (congrArg (·, Answer.ok [1]) (setLatch_clear (some p) hlatch)) rfl
  · exact serve_ok ht (congrArg (·, Answer.ok [1]) (setLatch_set (some p) hlatch)) rfl
  · exact serve_refused ht (clearEStop_stopActive p hstop)
  · exact serve_ok ht (clearEStop_clear p hstop hlatch) rfl
  · exact serve_posting ht (clearEStop_set p hstop hlatch) rfl

end Sys2Proof.Machine

namespace Sys2Proof.Machine

-- Declarations are elaborated one at a time: the threads of the whole text would pass the limit of the check.
set_option Elab.async false

variable {s t u : State} {l k : LaneId} {a b : AxisId} {n : PairId}

/-! ### The clash-pair table (R144 to R146) -/

theorem pairOf_none {v : Byte} (h : 31 < v.toNat) : pairOf v = none := by
  simp [pairOf, Nat.not_lt.2 (Nat.succ_le_of_lt h)]

theorem slotOwned_iff : slotOwned s n = true ↔ ∃ pr, s.pairs.get n = some pr ∧
    ((s.axis pr.upper).owner ≠ none ∨ (s.axis pr.lower).owner ≠ none) := by
  unfold slotOwned
  cases s.pairs.get n <;> simp [Option.isSome_iff_ne_none]

theorem slotOwned_free (h : ∀ pr, s.pairs.get n = some pr →
    (s.axis pr.upper).owner = none ∧ (s.axis pr.lower).owner = none) : slotOwned s n = false := by
  rw [Bool.eq_false_iff, ne_eq, slotOwned_iff]
  rintro ⟨pr, hpr, hu | hl⟩
  · exact hu (h pr hpr).1
  · exact hl (h pr hpr).2

/-- Two numbers name different axes exactly when they differ. -/
theorem axisOf_inj {x y : Byte} (hx : axisOf x = some a) (hy : axisOf y = some b) : a = b ↔ x = y := by
  rw [Fin.ext_iff, axisOf_some.1 hx, axisOf_some.1 hy, BitVec.toNat_eq]

theorem putPair_badPair {pair upper lower : Byte} {gap : Half} (h : pairOf pair = none) :
    putPair pair upper lower gap s = (s, .refuse .badArg) := by
  simp only [putPair, h]

/-- Check 3 of R145: two different axes and a gap in its range. -/
theorem putPair_badEntry {pair upper lower : Byte} {gap : Half} (hn : pairOf pair = some n)
    (hsave : s.loader.save = none)
    (h : 47 < upper.toNat ∨ 47 < lower.toNat ∨ upper = lower ∨ 5000 < gap.toNat) :
    putPair pair upper lower gap s = (s, .refuse .badArg) := by
  simp only [putPair, hn, not_saving hsave, Bool.false_eq_true, if_false]
  cases hu : axisOf upper with
  | none => rfl
  | some u =>
    cases hl : axisOf lower with
    | none => rfl
    | some l =>
      have hbad : u = l ∨ 5000 < gap.toNat := by
        rcases h with h | h | h | h
        · cases hu.symm.trans (axisOf_none h)
        · cases hl.symm.trans (axisOf_none h)
        · exact .inl ((axisOf_inj hu hl).2 h)
        · exact .inr h
      exact if_pos hbad

/-- PUT PAIR behind its argument checks: an owned axis of the new or of the old entry refuses it (R145). -/
theorem putPair_judged {pair upper lower : Byte} {gap : Half} {u l : AxisId} (hn : pairOf pair = some n)
    (hsave : s.loader.save = none) (hu : axisOf upper = some u) (hl : axisOf lower = some l) (hne : u ≠ l)
    (hgap : gap.toNat ≤ 5000) :
    putPair pair upper lower gap s =
      if (s.axis u).owner.isSome || (s.axis l).owner.isSome || slotOwned s n then (s, .refuse .busy)
      else (setPair n (some ⟨u, l, gap.toNat, none⟩) s, .ok ([pair, upper, lower] ++ be16 gap.toNat ++
        [if (s.axis u).config.isSome ∧ (s.axis l).config.isSome then 1 else 0])) := by
  have hactive : flagByte (pairActive s ⟨u, l, gap.toNat, none⟩) =
      if (s.axis u).config.isSome ∧ (s.axis l).config.isSome then 1 else 0 := by
    simp [flagByte, pairActive, State.present]
  have hgood : ¬ (u = l ∨ 5000 < gap.toNat) := not_or.2 ⟨hne, Nat.not_lt.2 hgap⟩
  simp only [putPair, hn, not_saving hsave, Bool.false_eq_true, if_false, hu, hl, if_neg hgood, hactive]

theorem dropPair_badPair {pair : Byte} (h : pairOf pair = none) : dropPair pair s = (s, .refuse .badArg) := by
  simp only [dropPair, h]

theorem dropPair_judged {pair : Byte} (hn : pairOf pair = some n) : dropPair pair s =
    if s.saving || slotOwned s n then (s, .refuse .busy) else (setPair n none s, .ok []) := by
  simp only [dropPair, hn]

/-- Settles O44: each request by the first of its checks that refuses it. -/
theorem a_pair_is_put_and_dropped : Obligations.a_pair_is_put_and_dropped := by
  refine fun p tag pair s => ⟨fun upper lower gap ht => ⟨fun h => ?_, fun n hn => ⟨fun hsave => ?_,
    fun hsave hbad => ?_, fun u l hsave hu hl hne hgap => ⟨fun howned => ?_, fun hou hol hfree => ?_⟩⟩⟩,
    fun ht => ⟨fun h => ?_, fun n hn => ⟨fun hbusy => ?_, fun hsave hfree => ?_⟩⟩⟩
  · exact serve_refused ht (putPair_badPair (pairOf_none h))
  · exact serve_refused ht (putPair_saving hn (saving_iff.2 hsave))
  · exact serve_refused ht (putPair_badEntry hn hsave hbad)
  · refine serve_refused ht ((putPair_judged hn hsave hu hl hne hgap).trans (if_pos ?_))
    simpa only [Bool.or_eq_true, Option.isSome_iff_ne_none, slotOwned_iff, or_assoc] using howned
  · refine serve_ok ht ((putPair_judged hn hsave hu hl hne hgap).trans (if_neg ?_)) rfl
    simp [hou, hol, slotOwned_free hfree]
  · exact serve_refused ht (dropPair_badPair (pairOf_none h))
  · refine serve_refused ht ((dropPair_judged hn).trans (if_pos ?_))
    rwa [Bool.or_eq_true, saving_iff, slotOwned_iff]
  · refine serve_ok ht ((dropPair_judged hn).trans (if_neg ?_)) rfl
    simp [not_saving hsave, slotOwned_free hfree]

/-! ### Checks on each reply (R136 to R141) -/

theorem followed_iff {st : AxisState} : st.followed = true ↔ st ∈ [AxisState.rest, .moving, .stopping] := by
  cases st <;> simp [AxisState.followed]

theorem apart_eq (x y : Nat) : apart x y = ((x : Int) - (y : Int)).natAbs := by
  unfold apart
  split <;> omega

theorem losesTracking_iff {c : ReplyCheck} : losesTracking s c = true ↔
    ((s.axis c.axis).state = .moving ∨ (s.axis c.axis).state = .stopping) ∧ c.mode = .follow ∧
      c.reply.tracking = false ∧ trackingMark s c.axis = true := by
  simp [losesTracking, travelling_iff, and_assoc]

theorem followsBadly_iff {c : ReplyCheck} {cfg : AxisConfig} : followsBadly s c cfg = true ↔
    (s.axis c.axis).state ∈ [AxisState.rest, .moving, .stopping] ∧ s.latch = false ∧ c.mode ≠ .identify ∧
      cfg.followLimit * 65536 < ((c.reply.feedback : Int) - (c.setpoint : Int)).natAbs := by
  simp only [followsBadly, Bool.and_eq_true, followed_iff, Bool.not_eq_true', decide_eq_true_eq, apart_eq, Config.unit,
    and_assoc]

section

variable {c : ReplyCheck} {cfg : AxisConfig}

theorem replyFault_driveFault (h : c.reply.fault = true) : replyFault s c = some .driveFault :=
  if_pos h

theorem replyFault_lostTracking (h : c.reply.fault = false) (hlost : losesTracking s c = true) :
    replyFault s c = some .lostTracking := by
  simp [replyFault, h, hlost]

theorem replyFault_following (h : c.reply.fault = false) (hlost : losesTracking s c = false)
    (hcfg : (s.axis c.axis).config = some cfg) (hfar : followsBadly s c cfg = true) :
    replyFault s c = some .following := by
  simp [replyFault, h, hlost, hcfg, hfar]

section

variable (h : c.reply.fault = false) (hlost : losesTracking s c = false)
  (hcfg : (s.axis c.axis).config = some cfg) (hfar : followsBadly s c cfg = false)

include h hlost hcfg hfar

/-- Once the checks before it have found nothing, the load of a travelling axis is judged (R140). -/
theorem replyFault_load (hmoves : (s.axis c.axis).state.travelling = true) (hlatch : s.latch = false) :
    replyFault s c =
      if cfg.loadMax < c.reply.load then some .loadHigh
      else if c.reply.load < cfg.loadMin then some .loadLow else none := by
  simp only [replyFault, h, hlost, hcfg, hfar, hmoves, hlatch, Bool.false_eq_true, if_false, Bool.not_false,
    Bool.and_self, if_true]

/-- Outside a motion, and while the latch is set, the load is not judged (R140). -/
theorem replyFault_none (hstill : (s.axis c.axis).state.travelling = false ∨ s.latch = true) :
    replyFault s c = none := by
  have hidle : ((s.axis c.axis).state.travelling && !s.latch) = false := by
    rcases hstill with e | e <;> simp [e]
  simp only [replyFault, h, hlost, hcfg, hfar, hidle, Bool.false_eq_true, if_false]

end

theorem checkReply_fault {cause : FaultCause} (h : replyFault s c = some cause) : checkReply c s =
    { s with messages := { s.messages with faultRequests := s.messages.faultRequests ++ [(c.axis, cause)] } } := by
  simp only [checkReply, h, State.updMessages]

theorem checkReply_clean (h : replyFault s c = none) : checkReply c s = warnLoad c s := by
  simp only [checkReply, h]

/-- The load warning is the check of a REST axis while the latch is clear (R141). -/
theorem warnLoad_idle (h : (s.axis c.axis).state ≠ .rest ∨ s.latch = true) : warnLoad c s = s := by
  have hidle : ¬ ((s.axis c.axis).state = .rest ∧ s.latch = false) := by
    simpa only [not_and_or, Bool.not_eq_false, ne_eq] using h
  simp only [warnLoad, if_neg hidle]
  cases (s.axis c.axis).config <;> rfl

theorem warnLoad_within (hcfg : (s.axis c.axis).config = some cfg) (hrest : (s.axis c.axis).state = .rest)
    (hlatch : s.latch = false) (hmax : c.reply.load ≤ cfg.loadMax) (hmin : cfg.loadMin ≤ c.reply.load) :
    warnLoad c s = s.updAxis c.axis (fun ax => { ax with loadWarning := false }) := by
  have hwithin : ¬ (cfg.loadMax < c.reply.load ∨ c.reply.load < cfg.loadMin) := by omega
  simp only [warnLoad, hcfg, hrest, hlatch, and_self, if_true, if_neg hwithin]

theorem warnLoad_outside (hcfg : (s.axis c.axis).config = some cfg) (hrest : (s.axis c.axis).state = .rest)
    (hlatch : s.latch = false) (hout : cfg.loadMax < c.reply.load ∨ c.reply.load < cfg.loadMin) :
    warnLoad c s = emitAll
      (if (s.axis c.axis).loadWarning then []
        else [.loadWarning c.axis c.reply.load (decide (cfg.loadMax < c.reply.load)) (s.axis c.axis).owner])
      (s.updAxis c.axis (fun ax => { ax with loadWarning := true })) := by
  simp only [warnLoad, hcfg, hrest, hlatch, and_self, if_true, if_pos hout]
  cases (s.axis c.axis).loadWarning with
  | false => rfl
  | true => exact (emitAll_nil _).symm

end

/-- The state once the Supervisor has taken a reply handed on for an axis. -/
def replyTaken (c : ReplyCheck) (s : State) : State :=
  { s with messages := { s.messages with replyChecks := s.messages.replyChecks.erase c } }

theorem exec_supervisorReplyCheck {c : ReplyCheck}
    (h : s.messages.replyChecks.find? (fun x => decide (x.axis = a)) = some c) :
    exec (.supervisorReplyCheck a) s = .next (checkReply c (replyTaken c s)) := by
  show Host.Outcome.next (takeReplyCheck a s) = _
  simp only [takeReplyCheck, h]
  rfl

/-- Settles O46: the checks of Table 8-1 in order, each with those before it having found nothing. -/
theorem a_good_reply_is_judged_in_order : Obligations.a_good_reply_is_judged_in_order := by
  intro a s c cfg lost far hc hcfg hlost hfar
  obtain rfl : c.axis = a := by simpa using List.find?_some hc
  have hlost' : lost ↔ losesTracking (replyTaken c s) c = true := hlost.trans losesTracking_iff.symm
  have hfar' : far ↔ followsBadly (replyTaken c s) c cfg = true := hfar.trans followsBadly_iff.symm
  have hcfg' : ((replyTaken c s).axis c.axis).config = some cfg := hcfg
  have hfault {cause : FaultCause} (h : replyFault (replyTaken c s) c = some cause) :=
    (exec_supervisorReplyCheck hc).trans (congrArg Host.Outcome.next (checkReply_fault h))
  refine ⟨replyTaken c s, _, rfl, fun _ => rfl, fun h => hfault (replyFault_driveFault h),
    fun h hl => hfault (replyFault_lostTracking h (hlost'.1 hl)), fun h hl hf => ?_, fun h hl hf => ?_⟩
  · exact hfault (replyFault_following h (by simpa [hlost'] using hl) hcfg' (hfar'.1 hf))
  · have hl' : losesTracking (replyTaken c s) c = false := by simpa [hlost'] using hl
    have hf' : followsBadly (replyTaken c s) c cfg = false := by simpa [hfar'] using hf
    have hclean (hnone : replyFault (replyTaken c s) c = none) {v : State} (hv : warnLoad c (replyTaken c s) = v) :
        exec (.supervisorReplyCheck c.axis) s = .next v := by
      rw [exec_supervisorReplyCheck hc, checkReply_clean hnone, hv]
    refine ⟨fun hmoves hlatch => ?_, fun hrest hlatch => ?_, fun hidle => ?_⟩
    · have hload := replyFault_load h hl' hcfg' hf' ((travelling_iff _).2 hmoves) hlatch
      have hnotRest : (s.axis c.axis).state ≠ .rest := by rcases hmoves with e | e <;> simp [e]
      refine ⟨fun hhigh => hfault (hload.trans (if_pos hhigh)), fun hmax hlow => hfault ?_, fun hmax hmin =>
        hclean ?_ (warnLoad_idle (.inl hnotRest))⟩
      · rw [hload, if_neg (not_lt.2 hmax), if_pos hlow]
      · rw [hload, if_neg (not_lt.2 hmax), if_neg (not_lt.2 hmin)]
    · have hnone := replyFault_none h hl' hcfg' hf' (.inl (congrArg AxisState.travelling hrest))
      exact ⟨fun hmax hmin => hclean hnone (warnLoad_within hcfg' hrest hlatch hmax hmin),
        fun hout => hclean hnone (warnLoad_outside hcfg' hrest hlatch hout)⟩
    · have hstill : (s.axis c.axis).state.travelling = false ∨ s.latch = true :=
        hidle.imp_left fun hstate => Bool.eq_false_iff.2 fun e => hstate (by
          rcases (travelling_iff _).1 e with e | e <;> simp [e])
      have hquiet : (s.axis c.axis).state ≠ .rest ∨ s.latch = true :=
        hidle.imp_left fun hstate e => hstate (by simp [e])
      exact hclean (replyFault_none h hl' hcfg' hf' hstill) (warnLoad_idle hquiet)

end Sys2Proof.Machine

namespace Sys2Proof.Machine

-- Declarations are elaborated one at a time: the threads of the whole text would pass the limit of the check.
set_option Elab.async false

variable {s t u : State} {l k : LaneId} {a b : AxisId} {n : PairId} {pr : ClashPair}

/-! ### What a gap check reads (R147 to R149) -/

theorem heightNow_iff {h : Option Nat} : HeightNow s a h ↔ h = reference (s.axis a) := by
  refine ⟨fun ⟨hsome, hnone⟩ => ?_, fun e => e ▸ reference_height s a⟩
  cases hset : (s.axis a).setpoint with
  | some v => rw [hsome v hset, (reference_height s a).1 v hset]
  | none => rw [hnone hset, (reference_height s a).2 hset]

theorem gapNow_iff {g : Option Int} : GapNow s pr g ↔ g = pairGap s pr := by
  refine ⟨?_, fun e => e ▸ pairGap_now s pr⟩
  rintro ⟨u, l, hu, hl, hsome, hnone⟩
  rw [pairGap, ← heightNow_iff.1 hu, ← heightNow_iff.1 hl]
  cases u with
  | none => exact hnone (.inl rfl)
  | some x =>
    cases l with
    | none => exact hnone (.inr rfl)
    | some y => exact hsome x y rfl rfl

theorem pairGap_congr (h : t.axes = s.axes) : pairGap t pr = pairGap s pr := by
  simp only [pairGap, State.axis, h]

theorem pairOwners_congr (h : t.axes = s.axes) : pairOwners t pr = pairOwners s pr := by
  have haxis : t.axis = s.axis := congrArg Table.get h
  rw [pairOwners, haxis]
  rfl

theorem pairTrips_iff : pairTrips s a pr = true ↔
    (pr.upper = a ∨ pr.lower = a) ∧ (s.axis pr.upper).config ≠ none ∧ (s.axis pr.lower).config ≠ none ∧
      ∃ g h, GapNow s pr (some g) ∧ pr.lastGap = some h ∧ g < (pr.gap : Int) ∧ g < h := by
  simp only [gapNow_iff, pairTrips, Bool.and_eq_true, watches_iff, and_assoc]
  cases pairGap s pr <;> cases pr.lastGap <;> simp

theorem pairOwners_nodup : (pairOwners s pr).Nodup := (List.nodup_finRange 8).filter _

theorem mem_pairConcerned : l ∈ pairConcerned s pr ↔
    l ∈ pairOwners s pr ∧ ((s.lane l).state = .running ∨ (s.lane l).state = .stopping) := by
  simp [pairConcerned]

theorem pairConcerned_ascending : (pairConcerned s pr).Pairwise (· < ·) :=
  ((List.pairwise_lt_finRange 8).filter _).filter _

/-! ### One trip (R148, R149) -/

/-- A lane concerned by the pair is RUNNING. -/
def concernsRunning (s : State) (pr : ClashPair) : Bool :=
  (pairConcerned s pr).any (fun l => decide ((s.lane l).state = .running))

theorem concernsRunning_iff :
    concernsRunning s pr = true ↔ ∃ l, l ∈ pairOwners s pr ∧ (s.lane l).state = .running := by
  simp only [concernsRunning, List.any_eq_true, mem_pairConcerned, decide_eq_true_eq]
  exact exists_congr fun l => ⟨fun ⟨⟨ho, _⟩, hs⟩ => ⟨ho, hs⟩, fun ⟨ho, hs⟩ => ⟨⟨ho, .inl hs⟩, hs⟩⟩

/-- The event of a trip of slot `n`, when it posts one (R149). -/
def tripEvent (writer : AxisId) (s : State) (n : PairId) : Option EventBody :=
  (s.pairs.get n).bind fun pr =>
    if concernsRunning s pr then
      some (.interlock n pr.upper pr.lower ((pairGap s pr).getD 0) pr.gap writer (pairConcerned s pr))
    else none

/-- A trip of slot `n` is sent to a lane (R148). -/
def tripReaches (s : State) (n : PairId) (l : LaneId) : Bool :=
  (s.pairs.get n).any fun pr => decide (l ∈ pairOwners s pr)

theorem deliver_foldl_messages (ls : List LaneId) (m : LaneMessage) (s : State) :
    (ls.foldl (fun t l => t.deliver l m) s).messages = s.messages := by
  induction ls generalizing s with
  | nil => rfl
  | cons l rest ih => exact ih (s.deliver l m)

theorem deliver_foldl_lane {ls : List LaneId} (h : ls.Nodup) (m : LaneMessage) (s : State) :
    (ls.foldl (fun t l => t.deliver l m) s).lane k =
      if k ∈ ls then { s.lane k with inbox := (s.lane k).inbox ++ [m] } else s.lane k := by
  induction ls generalizing s with
  | nil => rfl
  | cons l rest ih =>
    obtain ⟨hl, hrest⟩ := List.nodup_cons.1 h
    rw [List.foldl_cons, ih hrest, lane_deliver]
    by_cases hk : l = k
    · subst hk
      simp [hl]
    · simp [hk, Ne.symm hk]

theorem sendTrip_empty (h : s.pairs.get n = none) : sendTrip a n s = s := by
  simp only [sendTrip, h]

theorem sendTrip_defined (h : s.pairs.get n = some pr) : sendTrip a n s =
    (pairOwners s pr).foldl (fun t l => t.deliver l (.trip n)) (emitAll (tripEvent a s n).toList s) := by
  have hpost : emitAll (tripEvent a s n).toList s =
      if concernsRunning s pr then
        s.emit (.interlock n pr.upper pr.lower ((pairGap s pr).getD 0) pr.gap a (pairConcerned s pr))
      else s := by
    simp only [tripEvent, h, Option.bind_some]
    split
    · rfl
    · exact emitAll_nil s
  rw [hpost]
  simp only [sendTrip, h]
  rfl

theorem sendTrip_messages : (sendTrip a n s).messages = (emitAll (tripEvent a s n).toList s).messages := by
  cases h : s.pairs.get n with
  | none =>
    rw [sendTrip_empty h, tripEvent, h]
    exact (congrArg State.messages (emitAll_nil s)).symm
  | some pr => rw [sendTrip_defined h, deliver_foldl_messages]

theorem sendTrip_lane : (sendTrip a n s).lane l =
    { s.lane l with inbox := (s.lane l).inbox ++ (if tripReaches s n l then [.trip n] else []) } := by
  cases h : s.pairs.get n with
  | none => simp [sendTrip_empty h, tripReaches, h]
  | some pr =>
    rw [sendTrip_defined h, deliver_foldl_lane pairOwners_nodup]
    by_cases hl : l ∈ pairOwners s pr
    · simp only [tripReaches, h, hl, if_true, Option.any_some, decide_true]
      rfl
    · simp [tripReaches, h, hl]
      rfl

/-! ### The trips of a write (R147) -/

/-- What a trip reads stands as before: the pairs, the axes, the lane states, and the period that stamps its event. -/
structure TripsAlike (s t : State) : Prop where
  axes : t.axes = s.axes
  pairs : t.pairs = s.pairs
  period : t.period = s.period
  inboxes : InboxesOnly s t

theorem tripsAlike_sendTrip : TripsAlike s (sendTrip a n s) := by
  obtain ⟨lanes, messages, h⟩ := sendTrip_shape s a n
  exact ⟨by rw [h], by rw [h], by rw [h], inboxesOnly_sendTrip n⟩

theorem TripsAlike.concerned (h : TripsAlike s t) : pairConcerned t pr = pairConcerned s pr := by
  simp only [pairConcerned, pairOwners_congr h.axes, h.inboxes.state]

theorem TripsAlike.concernsRunning (h : TripsAlike s t) : concernsRunning t pr = concernsRunning s pr := by
  rw [Bool.eq_iff_iff, concernsRunning_iff, concernsRunning_iff, pairOwners_congr h.axes]
  simp only [h.inboxes.state]

theorem TripsAlike.tripEvent (h : TripsAlike s t) : tripEvent a t = tripEvent a s := by
  funext n
  simp only [Machine.tripEvent, h.pairs, h.concernsRunning, h.concerned, pairGap_congr h.axes]

theorem TripsAlike.tripReaches (h : TripsAlike s t) : tripReaches t = tripReaches s := by
  funext n l
  simp only [Machine.tripReaches, h.pairs, pairOwners_congr h.axes]

/-- The trips of slots `ns`, in order: their events posted in that order. -/
theorem sendTrips_messages (ns : List PairId) (s : State) :
    (ns.foldl (fun t n => sendTrip a n t) s).messages = (emitAll (ns.filterMap (tripEvent a s)) s).messages := by
  induction ns generalizing s with
  | nil => exact (congrArg State.messages (emitAll_nil s)).symm
  | cons n rest ih =>
    have halike : TripsAlike s (sendTrip a n s) := tripsAlike_sendTrip
    calc (rest.foldl (fun t n => sendTrip a n t) (sendTrip a n s)).messages
        = (emitAll (rest.filterMap (tripEvent a s)) (sendTrip a n s)).messages := by rw [ih, halike.tripEvent]
      _ = (emitAll (rest.filterMap (tripEvent a s)) (emitAll (tripEvent a s n).toList s)).messages :=
        emitAll_messages_congr sendTrip_messages halike.period
      _ = (emitAll ((n :: rest).filterMap (tripEvent a s)) s).messages := by
        rw [emitAll_emitAll, List.filterMap_cons]
        cases tripEvent a s n <;> rfl

/-- The trips of slots `ns`, in order: each lane's inbox takes those that reach it in that order. -/
theorem sendTrips_lane (ns : List PairId) (s : State) : (ns.foldl (fun t n => sendTrip a n t) s).lane l =
    { s.lane l with inbox := (s.lane l).inbox ++ (ns.filter (fun n => tripReaches s n l)).map .trip } := by
  induction ns generalizing s with
  | nil => simp
  | cons n rest ih =>
    have halike : TripsAlike s (sendTrip a n s) := tripsAlike_sendTrip
    rw [List.foldl_cons, ih, halike.tripReaches, sendTrip_lane]
    cases h : tripReaches s n l <;> simp [h]

/-- The pair in slot `n` trips at a write of an axis by the Motion Generator (R148). -/
def slotTrips (a : AxisId) (s : State) (n : PairId) : Bool := (s.pairs.get n).any (pairTrips s a)

theorem noteWrite_motion : noteWrite true a s =
    regap a (((List.finRange 32).filter (slotTrips a s)).foldl (fun t n => sendTrip a n t) s) := by
  have htest : (fun n => match s.pairs.get n with | some pr => pairTrips s a pr | none => false) = slotTrips a s := by
    funext n
    rw [slotTrips]
    cases s.pairs.get n <;> rfl
  rw [← htest]
  rfl

/-- The event that the gap check of a write posts for slot `n`, when it posts one (R149). -/
def checkEvent (a : AxisId) (s : State) (n : PairId) : Option EventBody :=
  if slotTrips a s n then tripEvent a s n else none

/-- The gap check of a write sends a trip of slot `n` to a lane (R148). -/
def checkTrips (a : AxisId) (s : State) (n : PairId) (l : LaneId) : Bool := tripReaches s n l && slotTrips a s n

theorem noteWrite_messages :
    (noteWrite true a s).messages = (emitAll ((List.finRange 32).filterMap (checkEvent a s)) s).messages := by
  have hevents : (List.finRange 32).filterMap (checkEvent a s) =
      ((List.finRange 32).filter (slotTrips a s)).filterMap (tripEvent a s) := List.filterMap_filter.symm
  rw [noteWrite_motion, hevents]
  exact sendTrips_messages _ s

theorem noteWrite_lane : (noteWrite true a s).lane l = { s.lane l with
    inbox := (s.lane l).inbox ++ ((List.finRange 32).filter (fun n => checkTrips a s n l)).map .trip } := by
  have htrips : (List.finRange 32).filter (fun n => checkTrips a s n l) =
      ((List.finRange 32).filter (slotTrips a s)).filter (fun n => tripReaches s n l) := List.filter_filter.symm
  rw [noteWrite_motion, htrips]
  exact sendTrips_lane _ s

theorem check_still (h : slotTrips a s n = false) : checkEvent a s n = none ∧ ∀ l, checkTrips a s n l = false := by
  simp [checkEvent, checkTrips, h]

section

variable (hn : s.pairs.get n = some pr)

include hn

theorem slotTrips_iff : slotTrips a s n = true ↔
    (pr.upper = a ∨ pr.lower = a) ∧ (s.axis pr.upper).config ≠ none ∧ (s.axis pr.lower).config ≠ none ∧
      ∃ g h, GapNow s pr (some g) ∧ pr.lastGap = some h ∧ g < (pr.gap : Int) ∧ g < h := by
  rw [slotTrips, hn, Option.any_some, pairTrips_iff]

theorem checkTrips_iff (htrips : slotTrips a s n = true) : checkTrips a s n l = true ↔ l ∈ pairOwners s pr := by
  simp [checkTrips, tripReaches, hn, htrips]

/-- A trip that concerns a RUNNING lane is reported with the gap that stands (R149). -/
theorem checkEvent_running (htrips : slotTrips a s n = true)
    (hrun : ∃ l, checkTrips a s n l = true ∧ (s.lane l).state = .running) : ∃ g, GapNow s pr (some g) ∧
      checkEvent a s n = some (.interlock n pr.upper pr.lower g pr.gap a (pairConcerned s pr)) := by
  obtain ⟨-, -, -, g, -, hg, -⟩ := (slotTrips_iff hn).1 htrips
  simp only [checkTrips_iff hn htrips] at hrun
  refine ⟨g, hg, ?_⟩
  rw [checkEvent, if_pos htrips, tripEvent, hn, Option.bind_some, if_pos (concernsRunning_iff.2 hrun),
    ← gapNow_iff.1 hg, Option.getD_some]

theorem checkEvent_quiet (htrips : slotTrips a s n = true)
    (hstill : ∀ l, checkTrips a s n l = true → (s.lane l).state ≠ .running) : checkEvent a s n = none := by
  simp only [checkTrips_iff hn htrips] at hstill
  have hnone : ¬ concernsRunning s pr = true := by
    rw [concernsRunning_iff]
    rintro ⟨l, hl, hs⟩
    exact hstill l hl hs
  rw [checkEvent, if_pos htrips, tripEvent, hn, Option.bind_some, if_neg hnone]

end

/-! ### A write by the Motion Generator (R11, R147 to R149) -/

/-- The state with the setpoint written, before the Supervisor's gap check (R11). -/
def setpointWritten (a : AxisId) (v : Nat) (s : State) : State :=
  s.updAxis a (fun ax => { ax with previous := ax.setpoint, setpoint := some v })

theorem setpointWritten_axis (v : Nat) :
    ∃ p q, (setpointWritten a v s).axis b = { s.axis b with previous := p, setpoint := q } := by
  rw [setpointWritten, axis_updAxis]
  split
  · next e => subst e; exact ⟨_, _, rfl⟩
  · exact ⟨_, _, rfl⟩

theorem setpointWritten_owner (v : Nat) : ((setpointWritten a v s).axis b).owner = (s.axis b).owner := by
  obtain ⟨p, q, h⟩ := setpointWritten_axis (s := s) (a := a) (b := b) v
  rw [h]

theorem setpointWritten_config (v : Nat) : ((setpointWritten a v s).axis b).config = (s.axis b).config := by
  obtain ⟨p, q, h⟩ := setpointWritten_axis (s := s) (a := a) (b := b) v
  rw [h]

/-- The gaps that the check reads are those that stand after the whole write. -/
theorem gapNow_moveSetpoint {v : Nat} {g : Option Int} :
    GapNow (moveSetpoint a v s) pr g ↔ GapNow (setpointWritten a v s) pr g := by
  have haxes : (moveSetpoint a v s).axes = (setpointWritten a v s).axes := noteWrite_axes _ a true
  rw [gapNow_iff, gapNow_iff, pairGap_congr haxes]

/-- Settles O45: the write's events and trips are those of its gap check, made on the state with the setpoint written. -/
theorem a_shrinking_gap_trips_its_pair : Obligations.a_shrinking_gap_trips_its_pair := by
  intro a v s
  refine ⟨_, checkEvent a (setpointWritten a v s), checkTrips a (setpointWritten a v s), rfl, moveSetpoint_axis s a v,
    fun b hb => moveSetpoint_axis_other v hb, moveSetpoint_gaps s a v, noteWrite_messages, fun l => noteWrite_lane,
    moveSetpoint_frame a v s, fun n hn => check_still ?_, fun n pr shrinks hn hshrinks => ?_⟩
  · rw [slotTrips, show (setpointWritten a v s).pairs.get n = none from hn, Option.any_none]
  · have hw : (setpointWritten a v s).pairs.get n = some pr := hn
    have htrips : shrinks ↔ slotTrips a (setpointWritten a v s) n = true := by
      rw [hshrinks, slotTrips_iff hw]
      simp only [setpointWritten_config, gapNow_moveSetpoint]
    refine ⟨fun hstill => check_still (Bool.eq_false_iff.2 (mt htrips.2 hstill)), fun h => ?_⟩
    have hreach (l : LaneId) := checkTrips_iff (l := l) hw (htrips.1 h)
    refine ⟨fun l => ?_, fun hrun => ?_, fun hquiet => checkEvent_quiet hw (htrips.1 h) hquiet⟩
    · rw [hreach, mem_pairOwners, setpointWritten_owner, setpointWritten_owner]
    · obtain ⟨g, hg, hevent⟩ := checkEvent_running hw (htrips.1 h) hrun
      refine ⟨g, _, gapNow_moveSetpoint.2 hg, hevent, pairConcerned_ascending, fun k => ?_⟩
      rw [hreach, mem_pairConcerned]
      rfl

end Sys2Proof.Machine

namespace Sys2Proof.Machine

-- Declarations are elaborated one at a time: the threads of the whole text would pass the limit of the check.
set_option Elab.async false

variable {s t : State} {a b : AxisId} {e : StationEntry}

/-! ### What ends a slot (R154, R156 to R158) -/

/-- A discarded entry's slot ends, and what its reply says is lost (R154). -/
theorem exec_statusFrame_discarded {latency : Nat} {bytes : List Byte} (hslot : s.link.slot = some ⟨a, true⟩)
    (hlatency : latency ≤ 500) (hbytes : bytes ≠ []) :
    exec (.statusFrame latency bytes) s = .next (closeSlot s) := by
  have hbegan : ¬ (Config.replyWindow < latency ∨ bytes = []) := not_or.2 ⟨Nat.not_lt.2 hlatency, hbytes⟩
  show Host.Outcome.next (statusFrame latency bytes s) = _
  simp only [statusFrame, hslot, if_neg hbegan, slotEntry, if_true]

theorem exec_replyWindowExpiry_discarded (hslot : s.link.slot = some ⟨a, true⟩) :
    exec .replyWindowExpiry s = .next (closeSlot s) := by
  show Host.Outcome.next (windowExpiry s) = _
  simp only [windowExpiry, hslot, slotEntry, if_true]

section

variable (hslot : s.link.slot = some ⟨a, false⟩) (he : s.station a = some e)

include hslot he

/-- A reply that begins in the window gives the entry its latency and its outcome (R157, R158). -/
theorem exec_statusFrame_open {latency : Nat} {bytes : List Byte} (hlatency : latency ≤ 500) (hbytes : bytes ≠ []) :
    exec (.statusFrame latency bytes) s =
      .next (takeSlot a (noteLatency latency e) (judgeReply e bytes) (closeSlot s)) := by
  have hbegan : ¬ (Config.replyWindow < latency ∨ bytes = []) := not_or.2 ⟨Nat.not_lt.2 hlatency, hbytes⟩
  show Host.Outcome.next (statusFrame latency bytes s) = _
  simp only [statusFrame, hslot, if_neg hbegan, slotEntry, Bool.false_eq_true, if_false, he]

theorem exec_replyWindowExpiry_open : exec .replyWindowExpiry s = .next (takeSlot a e .noReply (closeSlot s)) := by
  show Host.Outcome.next (windowExpiry s) = _
  simp only [windowExpiry, hslot, slotEntry, Bool.false_eq_true, if_false, he]

end

/-! The outcome of a reply that began (Table 9-2) -/

section

variable {bytes : List Byte} {f : StatusFrame}

theorem judgeReply_badCrc (h : readStatus (bytes.take 14) = none) : judgeReply e bytes = .badCrc := by
  simp only [judgeReply, Config.statusLength, h]

variable (h : readStatus (bytes.take 14) = some f)

include h

theorem judgeReply_stale (hother : f.address ≠ e.address ∨ ∀ fr, e.frame = some fr → f.echo ≠ fr.sequence.toNat) :
    judgeReply e bytes = .stale := by
  cases hfr : e.frame with
  | none => simp only [judgeReply, Config.statusLength, h, hfr]
  | some fr =>
    have hstale : ¬ (f.address = e.address ∧ f.echo = fr.sequence.toNat) := fun ⟨haddress, hecho⟩ =>
      hother.elim (fun hne => hne haddress) (fun hne => hne fr hfr hecho)
    simp only [judgeReply, Config.statusLength, h, hfr, if_neg hstale]

theorem judgeReply_good {fr : FrameRecord} (hfr : e.frame = some fr) (haddress : f.address = e.address)
    (hecho : f.echo = fr.sequence.toNat) : judgeReply e bytes = .good f.reply := by
  simp only [judgeReply, Config.statusLength, h, hfr, haddress, hecho, and_self, if_true]

end

/-! The entry stored, and what its change of state posts (R162, R164) -/

/-- The event of an entry's change of state: none when it keeps its state (R164). -/
def stationEvents (a : AxisId) (before after : StationEntry) : List EventBody :=
  if before.state = after.state then []
  else [.stationState after.address a before.state after.state (stationCount after)]

/-- An entry stored in any state but LOST posts its change alone (R164). -/
theorem storeEntry_eq {before after : StationEntry} (h : after.state ≠ .lost) :
    storeEntry a before after s = emitAll (stationEvents a before after) (s.setStation a (some after)) := by
  by_cases hsame : before.state = after.state
  · simp only [storeEntry, stationEvents, if_pos hsame, emitAll_nil]
  · simp only [storeEntry, stationEvents, if_neg hsame, if_neg h, emit_eq_emitAll]

theorem storeEntry_same {before after : StationEntry} (h : before.state = after.state) :
    storeEntry a before after s = s.setStation a (some after) :=
  if_pos h

/-- The loss of a station is told to the Axis Table besides its event (R162, R166). -/
theorem storeEntry_lost {before after : StationEntry} (hbefore : before.state ≠ .lost) (hafter : after.state = .lost) :
    storeEntry a before after s =
      notify ⟨a, none⟩ (emitAll [.stationState after.address a before.state .lost after.drops]
        (s.setStation a (some after))) := by
  simp only [storeEntry, hafter, if_neg hbefore, if_true, stationCount, emit_eq_emitAll]

/-! ### A slot without a good reply (R159 to R163) -/

@[simp] theorem countOutcome_address (o : ReplyOutcome) : (countOutcome o e).address = e.address := by
  cases o <;> rfl

@[simp] theorem countOutcome_state (o : ReplyOutcome) : (countOutcome o e).state = e.state := by
  cases o <;> rfl

section

variable {o : ReplyOutcome}

theorem takeSlot_failed (h : ∀ r, o ≠ .good r) : takeSlot a e o s = storeEntry a e (takeFailure o e) s := by
  cases o with
  | good r => exact absurd rfl (h r)
  | badCrc | noReply | stale => rfl

theorem takeFailure_away (h : e.state = .offline ∨ e.state = .lost) : takeFailure o e = e := by
  rcases h with h | h <;> simp only [takeFailure, h]

theorem takeFailure_joining (h : e.state = .joining) :
    takeFailure o e = { countOutcome o e with state := .offline, joining := 0 } := by
  simp only [takeFailure, h]

theorem takeFailure_online (h : e.state = .online) (hrun : e.badRun < 2) :
    takeFailure o e = { countOutcome o e with badRun := e.badRun + 1 } := by
  have hfew : ¬ Config.lossRun ≤ e.badRun + 1 := by rw [Config.lossRun]; omega
  simp only [takeFailure, h, if_neg hfew]

/-- The third failure in a row loses the station (R162). -/
theorem takeFailure_lost (h : e.state = .online) (hrun : 2 ≤ e.badRun) :
    takeFailure o e = { countOutcome o e with
      state := .lost, badRun := 0, drops := min (e.drops + 1) 65535, outage := some 0 } := by
  have hthird : Config.lossRun ≤ e.badRun + 1 := by rw [Config.lossRun]; omega
  simp only [takeFailure, h, if_pos hthird, bump_eq_min]

end

/-- A command ends the open slot of an entry `e` with a failed outcome, taken for `base`, which agrees with `e` in what a
failure turns on; `counted` is `base` with the outcome's counter increased (R157 to R159). -/
def EndsFailed (i : Instr) (a : AxisId) (s : State) (e base counted : StationEntry) : Prop :=
  ∃ o : ReplyOutcome, (∀ r, o ≠ .good r) ∧
    (base.address = e.address ∧ base.state = e.state ∧ base.badRun = e.badRun ∧ base.drops = e.drops) ∧
    counted = countOutcome o base ∧ exec i s = .next (takeSlot a base o (closeSlot s))

section

variable (hslot : s.link.slot = some ⟨a, false⟩) (he : s.station a = some e)

include hslot he

theorem endsFailed_expiry :
    EndsFailed .replyWindowExpiry a s e e { e with noReplies := min (e.noReplies + 1) 65535 } :=
  ⟨.noReply, nofun, ⟨rfl, rfl, rfl, rfl⟩, by rw [← bump_eq_min]; rfl, exec_replyWindowExpiry_open hslot he⟩

variable {latency : Nat} {bytes : List Byte} (hlatency : latency ≤ 500) (hbytes : bytes ≠ [])

include hlatency hbytes

theorem endsFailed_badCrc (h : readStatus (bytes.take 14) = none) :
    EndsFailed (.statusFrame latency bytes) a s e (noteLatency latency e)
      { noteLatency latency e with crcErrors := min (e.crcErrors + 1) 65535 } := by
  refine ⟨.badCrc, nofun, ⟨rfl, rfl, rfl, rfl⟩, by rw [← bump_eq_min]; rfl, ?_⟩
  rw [exec_statusFrame_open hslot he hlatency hbytes, judgeReply_badCrc h]

theorem endsFailed_stale {f : StatusFrame} (h : readStatus (bytes.take 14) = some f)
    (hother : f.address ≠ e.address ∨ ∀ fr, e.frame = some fr → f.echo ≠ fr.sequence.toNat) :
    EndsFailed (.statusFrame latency bytes) a s e (noteLatency latency e)
      { noteLatency latency e with stales := min (e.stales + 1) 65535 } := by
  refine ⟨.stale, nofun, ⟨rfl, rfl, rfl, rfl⟩, by rw [← bump_eq_min]; rfl, ?_⟩
  rw [exec_statusFrame_open hslot he hlatency hbytes, judgeReply_stale h hother]

end

/-- Settles O49: the three ways a slot fails end in one operation on the entry, read by the station state. -/
theorem a_failed_reply_is_counted_by_the_station_state :
    Obligations.a_failed_reply_is_counted_by_the_station_state := by
  refine ⟨fun i a s hslot hi => ?_, fun i a s e base counted hslot he hi => ?_⟩
  · rcases hi with rfl | ⟨latency, bytes, rfl, hlatency, hbytes⟩
    · exact exec_replyWindowExpiry_discarded hslot
    · exact exec_statusFrame_discarded hslot hlatency hbytes
  · have hends : EndsFailed i a s e base counted := by
      rcases hi with ⟨rfl, rfl, rfl⟩ | ⟨latency, bytes, rfl, hlatency, hbytes, rfl, ⟨h, rfl⟩ | ⟨f, h, hother, rfl⟩⟩
      · exact endsFailed_expiry hslot he
      · exact endsFailed_badCrc hslot he hlatency hbytes h
      · exact endsFailed_stale hslot he hlatency hbytes h hother
    obtain ⟨o, ho, ⟨haddress, hstate, hrun, hdrops⟩, rfl, hexec⟩ := hends
    rw [hexec, takeSlot_failed ho, ← haddress, ← hstate, ← hrun, ← hdrops]
    refine ⟨fun x => (closeSlot s).setStation a (some x), fun _ => rfl, fun h => ?_, fun h => ?_, fun h hrun => ?_,
      fun h hrun => ⟨_, rfl, ?_⟩⟩
    · rw [takeFailure_away h, storeEntry_same rfl]
    · rw [takeFailure_joining h, storeEntry_eq (by simp)]
      simp [stationEvents, stationCount, h]
    · rw [takeFailure_online h hrun]
      exact congrArg Host.Outcome.next (storeEntry_same (countOutcome_state o).symm)
    · rw [takeFailure_lost h hrun, storeEntry_lost (by simp [h]) rfl]
      simp only [countOutcome_address, h]
      rfl

/-! ### The entry after a good reply (R160 to R164) -/

theorem takeGood_away (h : e.state = .offline ∨ e.state = .lost) :
    takeGood e = { e with state := .joining, joining := 1 } := by
  rcases h with h | h <;> simp only [takeGood, h]

theorem takeGood_joining (h : e.state = .joining) (hfew : e.joining < 7) :
    takeGood e = { e with joining := e.joining + 1 } := by
  have hmore : ¬ Config.joinCount ≤ e.joining + 1 := by rw [Config.joinCount]; omega
  simp only [takeGood, h, if_neg hmore]

/-- The eighth good reply in a row completes the joining (R161). -/
theorem takeGood_joined (h : e.state = .joining) (hlast : 7 ≤ e.joining) :
    takeGood e = { e with
      state := .online, joining := 0, badRun := 0, outageRecord := e.outage.getD e.outageRecord, outage := none } := by
  have heighth : Config.joinCount ≤ e.joining + 1 := by rw [Config.joinCount]; omega
  simp only [takeGood, h, if_pos heighth]

theorem takeGood_online (h : e.state = .online) : takeGood e = { e with badRun := 0 } := by
  simp only [takeGood, h]

/-- What a good reply does to the station state, with the event it posts and whether it completes a joining. -/
theorem takeOutcome_good_state (r : Reply) :
    (takeOutcome (.good r) e).state ≠ .lost ∧
    ((e.state ≠ .online ∧ (takeOutcome (.good r) e).state = .online) ↔ (e.state = .joining ∧ 7 ≤ e.joining)) ∧
    stationEvents a e (takeOutcome (.good r) e) =
      if e.state = .offline ∨ e.state = .lost then [.stationState e.address a e.state .joining 0]
      else if e.state = .joining ∧ 7 ≤ e.joining then
        [.stationState e.address a .joining .online (e.outage.getD e.outageRecord)]
      else [] := by
  cases h : e.state with
  | offline => simp [takeOutcome, takeGood_away (.inl h), stationEvents, stationCount, h]
  | lost => simp [takeOutcome, takeGood_away (.inr h), stationEvents, stationCount, h]
  | online => simp [takeOutcome, takeGood_online h, stationEvents, h]
  | joining =>
    by_cases hlast : 7 ≤ e.joining
    · simp [takeOutcome, takeGood_joined h hlast, stationEvents, stationCount, h, hlast]
    · simp [takeOutcome, takeGood_joining h (Nat.lt_of_not_le hlast), stationEvents, h, hlast]

/-! ### A good reply and the axis (R165) -/

section

variable {f : Nat}

theorem seedUnderLatch_rest (h : s.latch = true ∧ (s.axis a).state = .rest) : seedUnderLatch a f s = seed a f s :=
  if_pos h

theorem seedUnderLatch_else (h : ¬ (s.latch = true ∧ (s.axis a).state = .rest)) : seedUnderLatch a f s = s :=
  if_neg h

/-- A seed under the latch changes setpoints and last gaps alone (R12, R129). -/
theorem seedUnderLatch_frame {c : AxisConfig} (hc : (s.axis a).config = some c) :
    (∀ b, b ≠ a → (seedUnderLatch a f s).axis b = s.axis b) ∧
      ((seedUnderLatch a f s).axis a).owner = (s.axis a).owner ∧
      { seedUnderLatch a f s with axes := s.axes, pairs := s.pairs } = s := by
  by_cases h : s.latch = true ∧ (s.axis a).state = .rest
  · obtain ⟨pairs, hseed⟩ := seed_frame f hc
    rw [seedUnderLatch_rest h, seed_axis s a f hc, hseed]
    exact ⟨fun b hb => Table.get_modify_of_ne _ _ hb.symm, rfl, rfl⟩
  · rw [seedUnderLatch_else h]
    exact ⟨fun _ _ => rfl, rfl, rfl⟩

/-- A seed neither reads nor writes a message. -/
theorem seed_messages (m : Messages) : seed a f { s with messages := m } = { seed a f s with messages := m } := by
  have haxis : State.axis { s with messages := m } a = s.axis a := rfl
  cases hc : (s.axis a).config with
  | none => simp only [seed, haxis, hc]
  | some c =>
    simp only [seed, haxis, hc, noteWrite_quiet]
    rfl

theorem seedUnderLatch_messages (m : Messages) :
    seedUnderLatch a f { s with messages := m } = { seedUnderLatch a f s with messages := m } := by
  by_cases h : s.latch = true ∧ (s.axis a).state = .rest
  · rw [seedUnderLatch_rest h, seedUnderLatch_rest (s := { s with messages := m }) h, seed_messages]
  · rw [seedUnderLatch_else h, seedUnderLatch_else (s := { s with messages := m }) h]

end

theorem movingMember_congr (ho : (t.axis a).owner = (s.axis a).owner) (hc : t.contexts = s.contexts) :
    movingMember t a = movingMember s a := by
  have hcontext : t.context = s.context := by funext l; rw [State.context, hc]; rfl
  simp only [movingMember, ho, hcontext]

theorem handToMotion_eq (r : Reply) (fr : FrameRecord) : handToMotion a r fr s = { s with
    messages := { s.messages with markNotices := s.messages.markNotices ++
      (if movingMember s a then [⟨a, r.tracking, fr.mode, fr.sinceMoving⟩] else []) } } := by
  rw [handToMotion]
  cases movingMember s a
  · simp only [Bool.false_eq_true, if_false, List.append_nil]
  · rfl

theorem copyReply_axis {r : Reply} (h : (s.axis a).state ≠ .unconfigured) :
    (copyReply a r s).axis a = { s.axis a with feedback := some r.feedback, load := some r.load } := by
  rw [copyReply, axis_updAxis_same, if_neg h]

theorem copyReply_axis_other {r : Reply} (h : b ≠ a) : (copyReply a r s).axis b = s.axis b := by
  rw [copyReply, axis_updAxis, if_neg h.symm]

/-- The axis once a good reply is copied into its record and has seeded it under the latch (R165 steps 2 and 5). -/
def axisServed (a : AxisId) (r : Reply) (s : State) : State := seedUnderLatch a r.feedback (copyReply a r s)

section

variable {r : Reply} {c : AxisConfig} (hc : (s.axis a).config = some c) (hstate : (s.axis a).state ≠ .unconfigured)

include hc hstate

theorem axisServed_frame : (∀ b, b ≠ a → (axisServed a r s).axis b = s.axis b) ∧
    ((axisServed a r s).axis a).owner = (s.axis a).owner ∧
    { axisServed a r s with axes := s.axes, pairs := s.pairs } = s := by
  have hcopied : ((copyReply a r s).axis a).config = some c := by rw [copyReply_axis hstate]; exact hc
  obtain ⟨hothers, howner, hframe⟩ := seedUnderLatch_frame (f := r.feedback) hcopied
  refine ⟨fun b hb => (hothers b hb).trans (copyReply_axis_other hb), howner.trans ?_, ?_⟩
  · rw [copyReply_axis hstate]
  · have hput := congrArg (fun t : State => { t with axes := s.axes }) hframe
    exact hput

theorem axisServed_leaves : (axisServed a r s).contexts = s.contexts ∧ (axisServed a r s).stations = s.stations ∧
    (axisServed a r s).link = s.link := by
  obtain ⟨-, -, hframe⟩ := axisServed_frame (r := r) hc hstate
  exact ⟨(congrArg State.contexts hframe :), (congrArg State.stations hframe :), (congrArg State.link hframe :)⟩

theorem axisServed_seeded (h : s.latch = true ∧ (s.axis a).state = .rest) :
    (axisServed a r s).axis a = { s.axis a with
      feedback := some r.feedback, load := some r.load, setpoint := some (seedValue c r.feedback)
      previous := some (seedValue c r.feedback) } ∧ GapsFollow a s (axisServed a r s) := by
  have hcopied : ((copyReply a r s).axis a).config = some c := by rw [copyReply_axis hstate]; exact hc
  have hrest : (copyReply a r s).latch = true ∧ ((copyReply a r s).axis a).state = .rest := by
    rw [copyReply_axis hstate]; exact h
  rw [axisServed, seedUnderLatch_rest hrest]
  exact ⟨by rw [seed_axis _ a r.feedback hcopied, copyReply_axis hstate],
    (seed_gaps _ a r.feedback hcopied).congr rfl rfl rfl⟩

omit hc in
theorem axisServed_copied (h : ¬ (s.latch = true ∧ (s.axis a).state = .rest)) :
    (axisServed a r s).axis a = { s.axis a with feedback := some r.feedback, load := some r.load } ∧
      (axisServed a r s).pairs = s.pairs := by
  have hother : ¬ ((copyReply a r s).latch = true ∧ ((copyReply a r s).axis a).state = .rest) := by
    rw [copyReply_axis hstate]; exact h
  rw [axisServed, seedUnderLatch_else hother]
  exact ⟨copyReply_axis hstate, rfl⟩

/-- Steps 2 to 6 of a good reply: the axis served, and what each of the other blocks is handed (R165). -/
theorem handOn_eq (fr : FrameRecord) (joined : Bool) : handOn a r fr joined s = { axisServed a r s with
    messages := { s.messages with
      replyChecks := s.messages.replyChecks ++ [⟨a, r, fr.setpoint, fr.mode⟩]
      stationNotices := s.messages.stationNotices ++ (if joined then [⟨a, some r.feedback⟩] else [])
      markNotices := s.messages.markNotices ++
        (if movingMember s a then [⟨a, r.tracking, fr.mode, fr.sinceMoving⟩] else []) } } := by
  obtain ⟨-, howner, -⟩ := axisServed_frame (r := r) hc hstate
  obtain ⟨hcontexts, -⟩ := axisServed_leaves (r := r) hc hstate
  have hgiven : (if joined then notify ⟨a, some r.feedback⟩ (handToSupervisor a r fr (copyReply a r s))
      else handToSupervisor a r fr (copyReply a r s)) = { copyReply a r s with
        messages := { s.messages with
          replyChecks := s.messages.replyChecks ++ [⟨a, r, fr.setpoint, fr.mode⟩]
          stationNotices := s.messages.stationNotices ++ (if joined then [⟨a, some r.feedback⟩] else []) } } := by
    cases joined
    · simp only [Bool.false_eq_true, if_false, List.append_nil]; rfl
    · rfl
  have hmember (m : Messages) :
      movingMember { seedUnderLatch a r.feedback (copyReply a r s) with messages := m } a = movingMember s a :=
    movingMember_congr howner hcontexts
  rw [handOn, hgiven, seedUnderLatch_messages, handToMotion_eq, hmember]
  rfl

end

/-- The entry stored with a good reply, and its event posted (R165 step 1). -/
def entryStored (a : AxisId) (r : Reply) (e : StationEntry) (s : State) : State :=
  emitAll (stationEvents a e (takeOutcome (.good r) e)) (s.setStation a (some (takeOutcome (.good r) e)))

/-- A good reply taken: the entry stored, the axis served, and every block handed its part (R165). -/
theorem takeSlot_good {r : Reply} {fr : FrameRecord} {c : AxisConfig} (hfr : e.frame = some fr)
    (hc : (s.axis a).config = some c) (hstate : (s.axis a).state ≠ .unconfigured) :
    takeSlot a e (.good r) s = { axisServed a r (entryStored a r e s) with
      messages := { s.messages with
        replyChecks := s.messages.replyChecks ++ [⟨a, r, fr.setpoint, fr.mode⟩]
        stationNotices := s.messages.stationNotices ++
          (if e.state = .joining ∧ 7 ≤ e.joining then [⟨a, some r.feedback⟩] else [])
        markNotices := s.messages.markNotices ++
          (if movingMember s a then [⟨a, r.tracking, fr.mode, fr.sinceMoving⟩] else [])
        posted := s.messages.posted ++
          (if e.state = .offline ∨ e.state = .lost then
            [⟨.stationState e.address a e.state .joining 0, s.period⟩]
          else if e.state = .joining ∧ 7 ≤ e.joining then
            [⟨.stationState e.address a .joining .online (e.outage.getD e.outageRecord), s.period⟩]
          else []) } } := by
  obtain ⟨hkept, hjoined, hevents⟩ := takeOutcome_good_state (a := a) (e := e) r
  have hstored : storeEntry a e (takeOutcome (.good r) e) s = entryStored a r e s := storeEntry_eq hkept
  have hmessages : (entryStored a r e s).messages = { s.messages with
      posted := s.messages.posted ++ (if e.state = .offline ∨ e.state = .lost then
          [⟨.stationState e.address a e.state .joining 0, s.period⟩]
        else if e.state = .joining ∧ 7 ≤ e.joining then
          [⟨.stationState e.address a .joining .online (e.outage.getD e.outageRecord), s.period⟩]
        else []) } := by
    simp only [entryStored, hevents, emitAll, apply_ite (List.map _), List.map_cons, List.map_nil]
    rfl
  have hmember : movingMember (entryStored a r e s) a = movingMember s a := movingMember_congr rfl rfl
  have htaken : takeSlot a e (.good r) s =
      handOn a r fr (decide (e.state = .joining ∧ 7 ≤ e.joining)) (entryStored a r e s) := by
    simp only [takeSlot, hfr, hstored, decide_eq_decide.2 hjoined]
  rw [htaken, handOn_eq (s := entryStored a r e s) hc hstate, hmessages, hmember]
  simp only [decide_eq_true_eq]

/-- Settles O50: the entry stored with its event, then the axis served and the reply handed on. -/
theorem a_good_reply_is_taken_and_handed_on : Obligations.a_good_reply_is_taken_and_handed_on := by
  intro latency bytes a s e fr f c hslot he hfr hlatency hbytes hread haddress hecho hc hstate
  have hexec := exec_statusFrame_open hslot he hlatency hbytes
  rw [judgeReply_good hread hfr haddress hecho,
    takeSlot_good (e := noteLatency latency e) (s := closeSlot s) hfr hc hstate] at hexec
  have hc' : ((entryStored a f.reply (noteLatency latency e) (closeSlot s)).axis a).config = some c := hc
  obtain ⟨hothers, -, hframe⟩ := axisServed_frame (r := f.reply) hc' hstate
  obtain ⟨-, hstations, hlink⟩ := axisServed_leaves (r := f.reply) hc' hstate
  have hentry {x : StationEntry} (hx : takeGood (noteLatency latency e) = x) :
      (axisServed a f.reply (entryStored a f.reply (noteLatency latency e) (closeSlot s))).station a =
        some { x with lastReply := some f.reply } := by
    rw [← hx, State.station, hstations]
    exact Table.get_set_same _ _ _
  refine ⟨_, _, seedValue c f.reply.feedback, hexec, rfl, rfl, fun h => hentry (takeGood_away h),
    fun h hfew => hentry (takeGood_joining h hfew), fun h hlast => hentry (takeGood_joined h hlast),
    fun h => hentry (takeGood_online h), hlink, fun hlatch hrest => ?_, fun helse => ?_, rfl,
    fun b hb => ⟨hothers b hb, ?_⟩, ?_⟩
  · obtain ⟨haxis, hgaps⟩ := axisServed_seeded hc' hstate ⟨hlatch, hrest⟩
    exact ⟨haxis, hgaps.congr rfl rfl rfl⟩
  · exact axisServed_copied hstate helse
  · show Table.get (axisServed _ _ _).stations b = _
    rw [hstations]
    exact Table.get_set_of_ne _ _ hb.symm
  · have hput := congrArg (fun t : State =>
      { t with stations := s.stations, link := s.link, messages := s.messages }) hframe
    exact hput

end Sys2Proof.Machine

namespace Sys2Proof.Machine

-- Declarations are elaborated one at a time: the threads of the whole text would pass the limit of the check.
set_option Elab.async false

variable {s : State} {a : AxisId} {e : StationEntry} {axis clear : Byte}

/-! ### The reports of a port and of the Drive Link (R167, R180 to R182) -/

theorem getStation_badArg (h : 47 < axis.toNat ∨ 1 < clear.toNat) :
    getStation axis clear s = (s, .refuse .badArg) := by
  cases ha : axisOf axis with
  | none => simp only [getStation, ha]
  | some a =>
    have haxis : a.val = axis.toNat := axisOf_some.1 ha
    have hclear : 1 < clear.toNat := h.resolve_left (by omega)
    simp only [getStation, ha, if_pos hclear]

section

variable (ha : axisOf axis = some a)

include ha

theorem getStation_unavailable (hclear : clear.toNat ≤ 1) (he : s.station a = none) :
    getStation axis clear s = (s, (⟨.unavailable, some a, none⟩ : Refused).answer) := by
  simp only [getStation, ha, if_neg (Nat.not_lt.2 hclear), he]

theorem getStation_read (he : s.station a = some e) : getStation axis 0 s = (s, .ok (stationReport e)) := by
  have hclear : ¬ 1 < (0 : Byte).toNat := by decide
  have hzero : (0 : Byte) ≠ 1 := by decide
  simp only [getStation, ha, if_neg hclear, he, if_neg hzero]

/-- The counters are reported as they stood before they are cleared (R167). -/
theorem getStation_clearing (he : s.station a = some e) :
    getStation axis 1 s = (s.setStation a (some (clearCounters e)), .ok (stationReport e)) := by
  have hclear : ¬ 1 < (1 : Byte).toNat := by decide
  simp only [getStation, ha, if_neg hclear, he, if_true]

end

theorem fetchReport_eq (events : List EventRecord) : fetchReport events =
    byteOf (min 8 events.length) :: (events.take 8).flatMap EventRecord.bytes ++ [byteOf (events.length - 8)] := by
  simp only [fetchReport, Config.fetchSize, List.length_take, List.length_drop, List.flatMap]

theorem setFilter_stored {p : Console} {filter : Byte} (h : filter.toNat ≤ 3) :
    setFilter p filter s = (s.updPort p (fun pt => { pt with filter := filter.toNat }), .ok [filter]) :=
  if_neg (Nat.not_lt.2 h)

theorem setFilter_badArg {p : Console} {filter : Byte} (h : 3 < filter.toNat) :
    setFilter p filter s = (s, .refuse .badArg) :=
  if_pos h

/-- Settles O51: each request posts nothing, and leaves its own change and its reply. -/
theorem a_port_reads_its_reports : Obligations.a_port_reads_its_reports := by
  intro p tag s
  refine ⟨fun axis clear a ha ht hclear => ⟨fun he => ?_, fun e he => ⟨?_, ?_⟩⟩,
    fun axis clear h ht => serve_refused ht (getStation_badArg h), fun ht => serve_ok ht rfl rfl, fun ht => ?_,
    fun filter ht => ⟨fun h => serve_ok ht (setFilter_stored h) rfl, fun h => serve_refused ht (setFilter_badArg h)⟩⟩
  · exact serve_quiet ht (getStation_unavailable ha hclear he) rfl
  · rintro rfl
    exact serve_ok ht (getStation_read ha he) rfl
  · rintro rfl
    exact serve_ok ht (getStation_clearing ha he) rfl
  · rw [← fetchReport_eq]
    exact serve_ok ht rfl rfl

end Sys2Proof.Machine

namespace Sys2Proof.Machine

-- Declarations are elaborated one at a time: the threads of the whole text would pass the limit of the check.
set_option Elab.async false

variable {s : State} {p : Console} {pt : Port} {e : EventRecord} {f : ConsoleFrame}

/-! ### One port's change -/

/-- A change of a port is what it makes of the record the port holds. -/
theorem updPort_congr {g h : Port → Port} (heq : g (s.port p) = h (s.port p)) : s.updPort p g = s.updPort p h :=
  congrArg (fun x => { s with ports := s.ports.set p x }) heq

theorem updPort_eq_self {g : Port → Port} (h : g (s.port p) = s.port p) : s.updPort p g = s := by
  have hports : s.ports.modify p g = s.ports := Table.ext_get (fun q => by
    rw [Table.get_modify]
    split
    · next hq => rw [← hq]; exact h
    · rfl)
  show { s with ports := s.ports.modify p g } = s
  rw [hports]

theorem updPort_updPort (g h : Port → Port) :
    (s.updPort p g).updPort p h = s.updPort p (fun pt => h (g pt)) := by
  simp only [State.updPort, Table.modify_modify]

/-! ### Installing an image (R187, R188) -/

theorem install_present {c : Configuration} {a : AxisId} {cfg : AxisConfig} (h : c.axes.getD a.val none = some cfg) :
    (install c s).axis a = { s.axis a with config := some cfg, state := .offline } ∧
      (install c s).station a = some (StationEntry.new cfg.station) := by
  simp only [install, State.axis, State.station, Table.get_mapIdx, h, and_self]

theorem install_absent {c : Configuration} {a : AxisId} (h : c.axes.getD a.val none = none) :
    (install c s).axis a = s.axis a ∧ (install c s).station a = s.station a := by
  simp only [install, State.axis, State.station, Table.get_mapIdx, h, and_self]

theorem install_pair (c : Configuration) (n : PairId) :
    (install c s).pairs.get n = (c.pairs.getD n.val none).or (s.pairs.get n) := by
  simp only [install, Table.get_mapIdx]
  cases c.pairs.getD n.val none <;> rfl

theorem install_empty : install .empty s = s := by
  have haxes : (install .empty s).axes = s.axes := Table.ext_get (fun a => (install_absent rfl).1)
  have hstations : (install .empty s).stations = s.stations := Table.ext_get (fun a => (install_absent rfl).2)
  have hpairs : (install .empty s).pairs = s.pairs := Table.ext_get (install_pair .empty)
  show { s with axes := (install .empty s).axes, stations := (install .empty s).stations,
                pairs := (install .empty s).pairs } = s
  rw [haxes, hstations, hpairs]

theorem judgeRecords_unloaded {image : List Byte} (h : (judgeRecords image).1.state ≠ .loaded) :
    (judgeRecords image).2 = .empty := by
  unfold judgeRecords at h ⊢
  split
  · rfl
  · next axes haxes =>
    split
    · rfl
    · next pairs hpairs =>
      simp only [haxes, hpairs] at h
      exact absurd rfl h

/-- An image that fails a test leaves nothing to install (R187). -/
theorem judgeImage_unloaded {image : List Byte} (h : (judgeImage image).1.state ≠ .loaded) :
    (judgeImage image).2 = .empty := by
  unfold judgeImage at h ⊢
  split_ifs with hblank hmarker hformat hcrc
  case pos | pos | pos | pos => rfl
  case neg =>
    simp only [if_neg hblank, if_neg hmarker, if_neg hformat, if_neg hcrc] at h
    exact judgeRecords_unloaded h

/-- Settles O6: the load is one change, whose tables are those of the install and whose ports have taken the offers. -/
theorem the_load_installs_whole_or_nothing : Obligations.the_load_installs_whole_or_nothing := by
  intro found s hloading
  have hunloaded := judgeImage_unloaded (image := (s.memory.writeAll found).image)
  refine ⟨_, congrArg Host.Outcome.next (completeLoad_eq found s hloading), ?_⟩
  dsimp only
  generalize judgeImage (s.memory.writeAll found).image = verdict at hunloaded ⊢
  refine ⟨rfl, rfl, rfl, fun p => Table.get_map _ _ _, fun p hposted hevents hfilter => ?_,
    fun a c hc => install_present (s := s) hc, fun a hc => install_absent (s := s) hc, install_pair _,
    fun hfailed => ?_, rfl⟩
  · simp only [State.port, Table.get_map, hposted, List.nil_append]
    exact offered_to_empty _ _ hevents hfilter.ge
  · have hsame : install verdict.2 s = s := by rw [hunloaded hfailed, install_empty]
    exact ⟨congrArg State.axes hsame, congrArg State.stations hsame, congrArg State.pairs hsame⟩

/-! ### Receiving a frame (R170) -/

theorem discardFrame_eq (pt : Port) :
    discardFrame pt = { pt with receiver := .hunt, frameErrors := min (pt.frameErrors + 1) 65535 } := by
  rw [discardFrame, bump_eq_min]

theorem receiveByte_hunt {b : Byte} {fault : Bool} (hr : pt.receiver = .hunt) (hb : fault = true ∨ b ≠ 0xC5) :
    receiveByte b fault pt = pt := by
  have hsync : ¬ (fault = false ∧ b = 0xC5) := by
    rintro ⟨rfl, rfl⟩
    simp at hb
  simp only [receiveByte, hr, huntByte, if_neg hsync]

theorem receiveByte_fault {b : Byte} (hr : pt.receiver ≠ .hunt) : receiveByte b true pt = discardFrame pt := by
  unfold receiveByte
  split
  case h_1 h => exact absurd h hr
  case h_2 | h_3 | h_4 => rfl

theorem receiveByte_tooLong {b : Byte} (hr : pt.receiver = .header []) (hb : 250 < b.toNat) :
    receiveByte b false pt = discardFrame pt := by
  simp only [receiveByte, hr, headerByte, Bool.false_eq_true, if_false]
  exact if_pos hb

theorem timeoutFrame_hunt (hr : pt.receiver = .hunt) : timeoutFrame pt = pt := by
  simp only [timeoutFrame, hr]

theorem timeoutFrame_receiving (hr : pt.receiver ≠ .hunt) : timeoutFrame pt = discardFrame pt := by
  unfold timeoutFrame
  split
  case h_1 h => exact absurd h hr
  case h_2 | h_3 | h_4 => rfl

/-- What the receiver has after the header of a frame: no body byte is waited for where LEN is 0. -/
def bodyAwaited (len kind tag : Byte) : Receiver :=
  if len = 0 then .check len kind tag [] [] else .body len kind tag []

theorem receive_sync (hr : pt.receiver = .hunt) : receiveByte 0xC5#8 false pt = { pt with receiver := .header [] } := by
  simp only [receiveByte, hr, huntByte]
  exact if_pos ⟨trivial, rfl⟩

theorem receive_header {len : Byte} (kind tag : Byte) (hlen : len.toNat ≤ 250) :
    [len, kind, tag].foldl (fun q x => receiveByte x false q) { pt with receiver := .header [] } =
      { pt with receiver := bodyAwaited len kind tag } := by
  have hshort : ¬ Config.bodyMax < len.toNat := Nat.not_lt.2 hlen
  simp only [List.foldl_cons, List.foldl_nil, receiveByte, headerByte, Bool.false_eq_true, if_false, if_neg hshort]
  rfl

theorem receive_bodyBytes {len kind tag : Byte} {got : List Byte} {b : Byte} {rest : List Byte}
    (h : got.length + (b :: rest).length = len.toNat) :
    (b :: rest).foldl (fun q x => receiveByte x false q) { pt with receiver := .body len kind tag got } =
      { pt with receiver := .check len kind tag (got ++ b :: rest) [] } := by
  induction rest generalizing got b with
  | nil =>
    have hlast : len.toNat ≤ got.length + 1 := h.ge
    simp only [List.foldl_cons, List.foldl_nil, receiveByte, bodyByte, Bool.false_eq_true, if_false, if_pos hlast]
  | cons c rest ih =>
    have hmore : ¬ len.toNat ≤ got.length + 1 := by simp only [List.length_cons] at h; omega
    have hgot : (got ++ [b]).length + (c :: rest).length = len.toNat := by
      simp only [List.length_append, List.length_cons, List.length_nil] at h ⊢; omega
    have hbyte : receiveByte b false { pt with receiver := .body len kind tag got } =
        { pt with receiver := .body len kind tag (got ++ [b]) } := by
      simp only [receiveByte, bodyByte, Bool.false_eq_true, if_false, if_neg hmore]
    rw [List.foldl_cons, hbyte, ih hgot, List.append_assoc, List.singleton_append]

theorem receive_body {len kind tag : Byte} {body : List Byte} (h : body.length = len.toNat) :
    body.foldl (fun q x => receiveByte x false q) { pt with receiver := bodyAwaited len kind tag } =
      { pt with receiver := .check len kind tag body [] } := by
  cases body with
  | nil =>
    have hzero : len = 0 := BitVec.eq_of_toNat_eq h.symm
    rw [bodyAwaited, if_pos hzero, List.foldl_nil]
  | cons b rest =>
    have hbytes : len ≠ 0 := by rintro rfl; cases h
    rw [bodyAwaited, if_neg hbytes, receive_bodyBytes (by simpa using h), List.nil_append]

theorem receive_check (len kind tag : Byte) (body : List Byte) (hi lo : Byte) :
    [hi, lo].foldl (fun q x => receiveByte x false q) { pt with receiver := .check len kind tag body [] } =
      { pt with receiver := .hunt, complete := pt.complete ++ [⟨len, kind, tag, body, hi, lo⟩] } := rfl

/-- A frame's bytes, SYNC to CRC, leave the receiver in HUNT and the frame complete, whatever the bytes are (R170). -/
theorem receive_frame {len kind tag hi lo : Byte} {body : List Byte} (hr : pt.receiver = .hunt) (hlen : len.toNat ≤ 250)
    (hbody : body.length = len.toNat) :
    (0xC5#8 :: len :: kind :: tag :: body ++ [hi, lo]).foldl (fun q x => receiveByte x false q) pt =
      { pt with complete := pt.complete ++ [⟨len, kind, tag, body, hi, lo⟩] } := by
  have hbytes : 0xC5#8 :: len :: kind :: tag :: body ++ [hi, lo] =
      0xC5#8 :: ([len, kind, tag] ++ body ++ [hi, lo]) := rfl
  rw [hbytes, List.foldl_cons, List.foldl_append, List.foldl_append, receive_sync hr, receive_header kind tag hlen,
    receive_body hbody, receive_check, ← hr]

/-- Settles O52: each receiver state takes its byte, and a frame is its header, body and check bytes in turn. -/
theorem a_receiver_assembles_whole_frames : Obligations.a_receiver_assembles_whole_frames := by
  refine ⟨fun p b fault s => ⟨rfl, fun hr => congrArg Host.Outcome.next ?_, fun hr => congrArg Host.Outcome.next ?_⟩,
    fun pt b => ⟨fun hr => ⟨receiveByte_hunt hr (.inl rfl), fun hb => receiveByte_hunt hr (.inr hb)⟩,
      fun hr => (receiveByte_fault hr).trans (discardFrame_eq pt),
      fun hr hb => (receiveByte_tooLong hr hb).trans (discardFrame_eq pt),
      fun kind tag hi lo body hr hlen hbody => receive_frame hr hlen hbody⟩⟩
  · exact updPort_eq_self (timeoutFrame_hunt hr)
  · exact updPort_congr ((timeoutFrame_receiving hr).trans (discardFrame_eq _))

/-! ### Admitting a frame (R171, R172) -/

theorem countFrameError_eq (p : Console) (s : State) : countFrameError p s =
    s.updPort p (fun pt => { pt with frameErrors := min (pt.frameErrors + 1) 65535 }) := by
  simp only [countFrameError, bump_eq_min]

/-- What admission does at a port with room for the reply and no request in progress, once the image has loaded (R172). -/
def admissionIdle : Parsed → Admission
  | .unknown => .answer .unknown
  | .badLength => .answer .badLength
  | .request i => .dispatch i

theorem admissionOf_overrun {parsed : Parsed} (h : 3 ≤ (s.port p).transmit.length) :
    admissionOf s p parsed = .overrun :=
  if_pos h

section

variable {parsed : Parsed} (hroom : (s.port p).transmit.length < 3)

include hroom

theorem admissionOf_starting (hload : s.loader.state = .loading) : admissionOf s p parsed = .answer .starting :=
  (if_neg (Nat.not_le.2 hroom)).trans (if_pos hload)

variable (hload : s.loader.state ≠ .loading)

include hload

theorem admissionOf_portBusy (hbusy : (s.port p).inProgress ≠ none) : admissionOf s p parsed = .answer .portBusy :=
  ((if_neg (Nat.not_le.2 hroom)).trans (if_neg hload)).trans (if_pos (Option.isSome_iff_ne_none.2 hbusy))

theorem admissionOf_idle (hidle : (s.port p).inProgress = none) : admissionOf s p parsed = admissionIdle parsed := by
  have hfree : ¬ (s.port p).inProgress.isSome = true := by simp [hidle]
  exact ((if_neg (Nat.not_le.2 hroom)).trans (if_neg hload)).trans (if_neg hfree)

end

/-- Taking a complete frame off its port changes nothing that admission reads. -/
theorem admissionOf_taken (rest : List ConsoleFrame) (parsed : Parsed) :
    admissionOf (s.updPort p (fun pt => { pt with complete := rest })) p parsed = admissionOf s p parsed := by
  simp only [admissionOf, port_updPort_same, State.updPort_loader]

section

variable {rest : List ConsoleFrame} (hframe : (s.port p).complete = f :: rest)

include hframe

theorem judgeFrame_spoilt (hcrc : f.checks = false) : judgeFrame p s =
    s.updPort p (fun pt => { pt with complete := rest, frameErrors := min (pt.frameErrors + 1) 65535 }) := by
  simp only [judgeFrame, hframe, hcrc, Bool.false_eq_true, if_false, countFrameError_eq, updPort_updPort]

variable (hcrc : f.checks = true)

include hcrc

theorem judgeFrame_overrun (h : admissionOf s p (parseRequest p f.kind f.tag f.body) = .overrun) : judgeFrame p s =
    s.updPort p (fun pt => { pt with complete := rest, frameErrors := min (pt.frameErrors + 1) 65535 }) := by
  simp only [judgeFrame, hframe, hcrc, if_true, admitFrame, admissionOf_taken, h, countFrameError_eq, updPort_updPort]

theorem judgeFrame_answer {code : ResultCode}
    (h : admissionOf s p (parseRequest p f.kind f.tag f.body) = .answer code) : judgeFrame p s =
    s.updPort p (fun pt => { pt with complete := rest, transmit := pt.transmit ++ [⟨f.kind, f.tag, code, []⟩] }) := by
  simp only [judgeFrame, hframe, hcrc, if_true, admitFrame, admissionOf_taken, h, queueReply, updPort_updPort]

theorem judgeFrame_dispatch {i : Instr}
    (h : admissionOf s p (parseRequest p f.kind f.tag f.body) = .dispatch i) : judgeFrame p s =
    s.updPort p (fun pt => { pt with complete := rest, inProgress := some i }) := by
  simp only [judgeFrame, hframe, hcrc, if_true, admitFrame, admissionOf_taken, h, updPort_updPort]

end

/-- A request command is served at its port under its own TAG and KIND (Table 12-2). -/
theorem exec_request {i : Instr} {tag kind : Byte} (h : i.request = some (p, tag, kind)) :
    ∃ act, ∀ s, exec i s = .next (serve p tag kind i act s) := by
  cases i <;> cases h <;> exact ⟨_, fun _ => rfl⟩

theorem serve_overrun {tag kind : Byte} {self : Instr} {act : State → State × Answer}
    (hself : (s.port p).inProgress ≠ some self) (h : admissionOf s p (.request self) = .overrun) :
    serve p tag kind self act s =
      s.updPort p (fun pt => { pt with frameErrors := min (pt.frameErrors + 1) 65535 }) := by
  simp only [serve, if_neg hself, h, countFrameError_eq]

theorem serve_answer {tag kind : Byte} {self : Instr} {act : State → State × Answer} {code : ResultCode}
    (hself : (s.port p).inProgress ≠ some self) (h : admissionOf s p (.request self) = .answer code) :
    serve p tag kind self act s =
      s.updPort p (fun pt => { pt with transmit := pt.transmit ++ [⟨kind, tag, code, []⟩] }) := by
  simp only [serve, if_neg hself, h, queueReply]

/-- Settles O53: the CRC, then the checks of admission in their order, for a frame and for a command that stands for one. -/
theorem a_frame_is_admitted_by_the_checks_in_order : Obligations.a_frame_is_admitted_by_the_checks_in_order := by
  refine ⟨fun p s f rest hframe => ⟨fun g => s.updPort p (fun pt => g { pt with complete := rest }), _, fun _ => rfl,
    fun _ _ => rfl, fun h => congrArg Host.Outcome.next ?_, fun hcrc hroom => ?_⟩, fun i p tag kind s hi hself => ?_⟩
  · cases hcrc : f.checks with
    | false => exact judgeFrame_spoilt hframe hcrc
    | true =>
      exact judgeFrame_overrun hframe hcrc (admissionOf_overrun (h.resolve_left (not_not.2 (of_decide_eq_true hcrc))))
  · have hchecks : f.checks = true := decide_eq_true hcrc
    have hanswer {code : ResultCode} (h : admissionOf s p (parseRequest p f.kind f.tag f.body) = .answer code) :=
      congrArg (Host.Outcome.next (φ := Fault) (ρ := Refusal)) (judgeFrame_answer hframe hchecks h)
    refine ⟨fun hload => hanswer (admissionOf_starting hroom hload), fun hload =>
      ⟨fun hbusy => hanswer (admissionOf_portBusy hroom hload hbusy), fun hidle => ?_⟩⟩
    have hadmit {parsed : Parsed} (hparse : parseRequest p f.kind f.tag f.body = parsed) :
        admissionOf s p (parseRequest p f.kind f.tag f.body) = admissionIdle parsed :=
      (admissionOf_idle hroom hload hidle).trans (congrArg admissionIdle hparse)
    exact ⟨fun hparse => hanswer (hadmit hparse), fun hparse => hanswer (hadmit hparse), fun i hparse =>
      congrArg Host.Outcome.next (judgeFrame_dispatch hframe hchecks (hadmit hparse))⟩
  · obtain ⟨act, hexec⟩ := exec_request hi
    rw [hexec]
    exact ⟨fun hfull => congrArg Host.Outcome.next (serve_overrun hself (admissionOf_overrun hfull)), fun hroom =>
      ⟨fun hload => congrArg Host.Outcome.next (serve_answer hself (admissionOf_starting hroom hload)),
        fun hload hbusy => congrArg Host.Outcome.next (serve_answer hself (admissionOf_portBusy hroom hload hbusy))⟩⟩

/-! ### Sending replies and offering events (R174, R177 to R179) -/

theorem sendReply_oldest {r : PortReply} {rest : List PortReply} (h : pt.transmit = r :: rest) :
    sendReply pt = { pt with transmit := rest, sent := r.frame } := by
  simp only [sendReply, h]

theorem offerOldest_eq {rest : List EventRecord} (h : s.messages.posted = e :: rest) : offerOldest s =
    { s with ports := s.ports.map (offerPort e), messages := { s.messages with posted := rest } } := by
  simp only [offerOldest, h]
  rfl

/-- The pending-class flags in the words of R178; class 0 has none. -/
theorem setPending_eq (k : Nat) (pt : Port) : setPending k pt = { pt with
    pending1 := pt.pending1 || decide (k = 1)
    pending2 := pt.pending2 || decide (k = 2)
    pending3 := pt.pending3 || decide (k = 3) } := by
  unfold setPending
  split
  case h_4 hne1 hne2 hne3 =>
    simp only [decide_eq_false hne1, decide_eq_false hne2, decide_eq_false hne3, Bool.or_false]
  all_goals simp

theorem offerPort_queued (hcls : e.body.cls ≤ pt.filter) (hroom : pt.events.length < 32) :
    offerPort e pt = { pt with events := pt.events ++ [e] } :=
  (if_pos hcls).trans (if_pos hroom)

theorem offerPort_lost (hcls : e.body.cls ≤ pt.filter) (hfull : 32 ≤ pt.events.length) :
    offerPort e pt = { pt with overflow := true } :=
  (if_pos hcls).trans (if_neg (Nat.not_lt.2 hfull))

theorem offerPort_turnedAway (hcls : pt.filter < e.body.cls) : offerPort e pt = setPending e.body.cls pt :=
  if_neg (Nat.not_le.2 hcls)

theorem attention_queued (es : List EventRecord) (hevents : pt.events = es ++ [e]) : pt.attention = true := by
  simp [Port.attention, hevents]

/-- Settles O54: the oldest reply leaves its queue, and each port takes the oldest event by its filter and its queue. -/
theorem replies_are_sent_and_events_offered_oldest_first :
    Obligations.replies_are_sent_and_events_offered_oldest_first := by
  refine fun s => ⟨fun p r rest hqueue => congrArg Host.Outcome.next (updPort_congr (sendReply_oldest hqueue)),
    fun e rest hposted => ⟨_, congrArg Host.Outcome.next (offerOldest_eq hposted), rfl, fun p => ?_, rfl⟩⟩
  simp only [State.port, Table.get_map]
  refine ⟨fun hcls hroom => ?_, offerPort_lost, fun hcls => (offerPort_turnedAway hcls).trans (setPending_eq _ _)⟩
  have hqueued := offerPort_queued hcls hroom
  exact ⟨hqueued, attention_queued _ (congrArg Port.events hqueued)⟩

end Sys2Proof.Machine

namespace Sys2Proof.Machine

-- Declarations are elaborated one at a time: the threads of the whole text would pass the limit of the check.
set_option Elab.async false

variable {m : Memory} {image bytes : List Byte}

/-! ### Pin reset (R135, R185, R191) -/

theorem resetLines_qualified (i : Fin 8) : (LineState.resetLines.get i).qualified = decide (i = 0) := by
  by_cases h : i = 0
  · rw [h]; rfl
  · simp only [LineState.resetLines, Table.get_set_of_ne _ _ (Ne.symm h), Table.get_fill, h, decide_false]

/-- The reset level of a line is high for STOPN alone (R135). -/
theorem resetLine_eq (i : Fin 8) (ls : LineState) :
    resetLine i ls = ⟨ls.raw, decide (i = 0), decide (ls.raw ≠ decide (i = 0))⟩ := by
  simp only [resetLine, resetLines_qualified]

/-- Settles O3: the reset state with the three fields a pin reset takes from the state before. -/
theorem pin_reset_restores_the_reset_values : Obligations.pin_reset_restores_the_reset_values := by
  intro written s
  have hlines : s.lines.mapIdx resetLine =
      s.lines.mapIdx (fun i ls => ⟨ls.raw, decide (i = 0), decide (ls.raw ≠ decide (i = 0))⟩) :=
    congrArg (s.lines.mapIdx ·) (funext₂ resetLine_eq)
  show Host.Outcome.next (pinReset written s) = _
  rw [pinReset, hlines]
  rfl

/-! ### The memory after a list of byte writes (R190, R197) -/

theorem writeAll_append (m : Memory) (xs ys : List (Nat × Byte)) :
    m.writeAll (xs ++ ys) = (m.writeAll xs).writeAll ys :=
  List.foldl_append

/-- A byte that no write names reads as before. -/
theorem read_writeAll_unnamed {cells : List (Nat × Byte)} {x : Nat} (hm : Memory.wf m = true)
    (h : ∀ c ∈ cells, c.1 ≠ x) : Memory.read (m.writeAll cells) x = Memory.read m x := by
  induction cells generalizing m with
  | nil => rfl
  | cons c cells ih =>
    have hhead : x ≠ c.1 := (h c List.mem_cons_self).symm
    calc Memory.read ((m.write c.1 c.2).writeAll cells) x
      _ = Memory.read (m.write c.1 c.2) x :=
        ih (Memory.wf_write c.1 c.2 hm) (fun d hd => h d (List.mem_cons_of_mem _ hd))
      _ = Memory.read m x := by rw [Memory.read_write _ _ _ hm, if_neg (fun e => hhead e.1)]

/-- The byte writes of consecutive bytes, from an address on. -/
def runWrites (start : Nat) (bytes : List Byte) : List (Nat × Byte) :=
  (bytes.zipIdx start).map (fun x => (x.2, x.1))

theorem runWrites_cons (start : Nat) (b : Byte) (bytes : List Byte) :
    runWrites start (b :: bytes) = (start, b) :: runWrites (start + 1) bytes := rfl

theorem length_runWrites (start : Nat) (bytes : List Byte) : (runWrites start bytes).length = bytes.length := by
  simp [runWrites]

theorem le_of_mem_runWrites {start : Nat} {c : Nat × Byte} (h : c ∈ runWrites start bytes) : start ≤ c.1 := by
  induction bytes generalizing start with
  | nil => cases h
  | cons b bytes ih =>
    rcases List.mem_cons.1 h with rfl | h
    · exact Nat.le_refl _
    · exact Nat.le_of_succ_le (ih h)

/-- Consecutive bytes written read back one by one. -/
theorem read_writeAll_run {start k : Nat} (hm : Memory.wf m = true) (hk : k < bytes.length)
    (hend : bytes.length + start ≤ Config.imageSize) :
    Memory.read (m.writeAll (runWrites start bytes)) (k + start) = bytes[k] := by
  induction bytes generalizing start k m with
  | nil => cases hk
  | cons b bytes ih =>
    have hm' := Memory.wf_write start b hm
    rw [List.length_cons] at hend
    rw [runWrites_cons]
    show Memory.read ((m.write start b).writeAll (runWrites (start + 1) bytes)) (k + start) = (b :: bytes)[k]
    cases k with
    | zero =>
      rw [Nat.zero_add, read_writeAll_unnamed hm' (fun c hc => Nat.ne_of_gt (le_of_mem_runWrites hc)),
        Memory.read_write _ _ _ hm, if_pos ⟨rfl, by omega⟩]
      rfl
    | succ k =>
      rw [Nat.succ_add_eq_add_succ]
      exact ih hm' (Nat.lt_of_succ_lt_succ hk) (by omega)

/-! ### The writes of a save (R190, R191) -/

theorem length_image (m : Memory) : m.image.length = Config.imageSize := by
  rw [Memory.image, List.length_map, List.length_range]

theorem getElem_image {k : Nat} (hk : k < m.image.length) : m.image[k] = Memory.read m k := by
  simp [Memory.image]

/-- The marker in the memory (R186, R197). -/
theorem image_marker (m : Memory) : m.image.take 2 = [Memory.read m 0, Memory.read m 1] := by
  rw [Memory.image, ← List.map_take, List.take_range]
  rfl

/-- An image that opens with the valid marker is the marker and the rest behind it. -/
theorem eq_marker_cons (h : image.take 2 = [0x4C, 0x43]) : ∃ rest, image = 0x4C :: 0x43 :: rest :=
  ⟨image.drop 2, (List.take_append_drop 2 image).symm.trans (congrArg (· ++ image.drop 2) h)⟩

/-- The writes of a save behind the two that spoil the marker: the rest of the image, then the valid marker. -/
theorem saveWrites_eq (image : List Byte) :
    saveWrites image = [(0, 0), (1, 0)] ++ (runWrites 2 (image.drop 2) ++ [(0, 0x4C)] ++ [(1, 0x43)]) := by
  rw [saveWrites, List.append_assoc, List.append_assoc]
  rfl

theorem length_saveWrites (hlen : image.length = Config.imageSize) :
    (saveWrites image).length = Config.imageSize + 2 := by
  rw [saveWrites_eq]
  simp [length_runWrites, hlen, Config.imageSize]

/-- The memory holds the image formed once every write of the save is made (R190). -/
theorem image_writeAll_saveWrites (hm : Memory.wf m = true) (hlen : image.length = Config.imageSize)
    (hmarker : image.take 2 = [0x4C, 0x43]) : (m.writeAll (saveWrites image)).image = image := by
  obtain ⟨rest, rfl⟩ := eq_marker_cons hmarker
  have hspoilt := Memory.wf_writeAll [(0, 0), (1, 0)] hm
  have hbody := Memory.wf_writeAll (runWrites 2 rest) hspoilt
  refine List.ext_getElem ((length_image _).trans hlen.symm) (fun k hk hk' => ?_)
  rw [getElem_image, saveWrites_eq, writeAll_append, writeAll_append, writeAll_append]
  show ((((m.writeAll [(0, 0), (1, 0)]).writeAll (runWrites 2 rest)).write 0 0x4C).write 1 0x43).read k = _
  rw [Memory.read_write _ _ _ (Memory.wf_write 0 0x4C hbody), Memory.read_write _ _ _ hbody]
  match k with
  | 0 | 1 => rfl
  | k + 2 =>
    rw [if_neg (by omega), if_neg (by omega)]
    exact read_writeAll_run hspoilt (Nat.lt_of_succ_lt_succ (Nat.lt_of_succ_lt_succ hk')) hlen.le

theorem judgeImage_marker (hblank : image.take 2 ≠ [0xFF, 0xFF]) (hmarker : image.take 2 ≠ [0x4C, 0x43]) :
    judgeImage image = (.marker, .empty) := by
  rw [judgeImage, if_neg hblank, if_pos hmarker]

/-- A marker with a zero in either byte is neither the erased nor the valid one, so the load ends ERROR (R187, R191). -/
theorem judgeImage_spoilt (h : Memory.read m 0 = 0 ∨ Memory.read m 1 = 0) : (judgeImage m.image).1 = .marker := by
  have hne {b c : Byte} (hb : b ≠ 0) (hc : c ≠ 0) : m.image.take 2 ≠ [b, c] := by
    rw [image_marker]
    rintro ⟨⟩
    exact h.elim hb hc
  rw [judgeImage_marker (hne (by decide) (by decide)) (hne (by decide) (by decide))]

/-- From the second write of a save to the last but one the second marker byte is zero (R190). -/
theorem read_second_marker (hm : Memory.wf m = true) (hlen : image.length = Config.imageSize) {k : Nat}
    (hk : k < Config.imageSize) : Memory.read (m.writeAll ((saveWrites image).take (2 + k))) 1 = 0 := by
  have hlength : (runWrites 2 (image.drop 2) ++ [(0, 0x4C)]).length = 934 := by
    simp [length_runWrites, hlen, Config.imageSize]
  have htake : (saveWrites image).take (2 + k) =
      [(0, 0), (1, 0)] ++ (runWrites 2 (image.drop 2) ++ [(0, 0x4C)]).take k := by
    rw [saveWrites_eq, List.take_append, List.take_of_length_le (by simp), List.length_cons, List.length_singleton,
      Nat.add_sub_cancel_left, List.take_append_of_le_length (by rw [hlength]; exact Nat.le_of_lt_succ hk)]
  have hunnamed : ∀ c ∈ (runWrites 2 (image.drop 2) ++ [(0, 0x4C)]).take k, c.1 ≠ 1 := by
    intro c hc
    rcases List.mem_append.1 (List.mem_of_mem_take hc) with hc | hc
    · exact Nat.ne_of_gt (le_of_mem_runWrites hc)
    · rw [List.mem_singleton.1 hc]; exact Nat.zero_ne_one
  rw [htake, writeAll_append, read_writeAll_unnamed (Memory.wf_writeAll _ hm) hunnamed]
  exact (Memory.read_write 1 0 1 (Memory.wf_write 0 0 hm)).trans (if_pos ⟨rfl, by decide⟩)

/-- Settles O4: the marker is spoilt by the first write and made good by the last. -/
theorem an_interrupted_save_is_never_loaded_in_part :
    Obligations.an_interrupted_save_is_never_loaded_in_part := by
  refine fun m image n hm hlen hmarker => ⟨fun h => ?_, fun hpos hn => judgeImage_spoilt ?_, fun hn => ?_⟩
  · rw [h]; rfl
  · match n with
    | 1 => exact .inl ((Memory.read_write 0 0 0 hm).trans (if_pos ⟨rfl, by decide⟩))
    | k + 2 =>
      rw [Nat.add_comm k 2]
      exact .inr (read_second_marker hm hlen (by omega))
  · rw [List.take_of_length_le (by rw [length_saveWrites hlen]; exact hn)]
    exact image_writeAll_saveWrites hm hlen hmarker

/-! ### The read-back (R190) -/

theorem firstDifference_self (image : List Byte) : firstDifference image image = none := by
  rw [firstDifference, List.findIdx?_eq_none_iff]
  intro x hx
  obtain ⟨i, hi, rfl⟩ := List.getElem_of_mem hx
  simp

theorem firstDifference_first {back : List Byte} {i : Nat} (hlen : image.length = back.length)
    (hi : i < image.length) (hdiffer : back[i]? ≠ image[i]?) (hsame : ∀ k < i, back[k]? = image[k]?) :
    firstDifference image back = some i := by
  have hback : i < back.length := hlen ▸ hi
  rw [firstDifference, List.findIdx?_eq_some_iff_getElem]
  refine ⟨by rw [List.length_zip]; exact Nat.lt_min.2 ⟨hi, hback⟩, ?_, fun k hk => ?_⟩
  · rw [List.getElem?_eq_getElem hback, List.getElem?_eq_getElem hi] at hdiffer
    simpa using fun e => hdiffer (congrArg some e.symm)
  · have hk := hsame k hk
    rw [List.getElem?_eq_getElem (by omega), List.getElem?_eq_getElem (by omega)] at hk
    simpa using (Option.some.inj hk).symm

/-- Settles O9: the read-back is compared byte by byte, and undisturbed it gives the image written. -/
theorem a_save_is_proved_by_its_read_back : Obligations.a_save_is_proved_by_its_read_back := by
  intro bad job s hsave hlen hmarker hm
  have hexec : exec (.saveCompletion bad) s = .next (completeSave bad s) := rfl
  refine ⟨fun hback => ?_, fun i hi hdiffer hsame => ?_, image_writeAll_saveWrites hm hlen hmarker⟩
  · simp only [hexec, completeSave, hsave, hback, firstDifference_self]
  · have hfirst := firstDifference_first (hlen.trans (length_image _).symm) (hlen ▸ hi) hdiffer hsame
    simp only [hexec, completeSave, hsave, hfirst]

end Sys2Proof.Machine

namespace Sys2Proof.Machine

-- Declarations are elaborated one at a time: the threads of the whole text would pass the limit of the check.
set_option Elab.async false

variable {image : List Byte} {ι : Type}

/-! ### The first four tests (R187) -/

theorem judgeImage_blank (h : image.take 2 = [0xFF, 0xFF]) : judgeImage image = (.blank, .empty) := if_pos h

section
variable (hmarker : image.take 2 = [0x4C, 0x43])
include hmarker

/-- An image with the valid marker is neither BLANK nor without its marker. -/
theorem judgeImage_marked : judgeImage image =
    if (image.drop 2).take 3 ≠ [1, 48, 32] then (.format, .empty)
    else if imageChecks image = false then (.crc, .empty)
    else judgeRecords image := by
  rw [judgeImage, if_neg (by rw [hmarker]; decide), if_neg (not_not.2 hmarker)]

theorem judgeImage_format (h : (image.drop 2).take 3 ≠ [1, 48, 32]) : judgeImage image = (.format, .empty) := by
  rw [judgeImage_marked hmarker, if_pos h]

variable (hformat : (image.drop 2).take 3 = [1, 48, 32])
include hformat

theorem judgeImage_crc (h : crcBytes (image.take 933) ≠ (image.drop 933).take 2) :
    judgeImage image = (.crc, .empty) := by
  rw [judgeImage_marked hmarker, if_neg (not_not.2 hformat), if_pos (by simp [imageChecks, h])]

theorem judgeImage_checked (h : crcBytes (image.take 933) = (image.drop 933).take 2) :
    judgeImage image = judgeRecords image := by
  rw [judgeImage_marked hmarker, if_neg (not_not.2 hformat), if_neg (by simp [imageChecks, h])]

end

/-! ### Lists of numbered records -/

/-- One number divides the ascending list of all numbers into those below it, itself, and those above. -/
theorem finRange_split {n : Nat} (i : Fin n) : ∃ before after : List (Fin n),
    List.finRange n = before ++ i :: after ∧ before.length = i.val ∧ ∀ k, k ∈ before ↔ k < i := by
  have hi : i.val < (List.finRange n).length := by simp
  refine ⟨(List.finRange n).take i, (List.finRange n).drop (i + 1), ?_, by simp, fun k => ?_⟩
  · conv_lhs => rw [← List.take_append_drop i.val (List.finRange n), List.drop_eq_getElem_cons hi]
    simp
  · rw [List.mem_take_iff_getElem]
    refine ⟨?_, fun hk => ⟨k.val, by simp; omega, by simp⟩⟩
    rintro ⟨j, hj, rfl⟩
    simpa [Fin.lt_def] using (Nat.lt_min.1 hj).1

theorem except_map_map {α β γ : Type} (e : Except Nat α) (f : α → β) (g : β → γ) :
    (e.map f).map g = e.map (fun x => g (f x)) :=
  Functor.map_map f g e

/-- One record of an image, by its number. -/
def recordAt (image : List Byte) (offset width n : Nat) : List Byte := (image.drop (offset + width * n)).take width

theorem records_eq (image : List Byte) (offset width count : Nat) : records image offset width count =
    (List.finRange count).map (fun n => recordAt image offset width n.val) := by
  rw [records, ← List.map_coe_finRange_eq_range, List.map_map]
  rfl

/-- A record that lies inside the image is its bytes one by one. -/
theorem recordAt_eq_getD {offset width n : Nat} (h : offset + width * n + width ≤ image.length) :
    recordAt image offset width n = (List.range width).map (fun k => image.getD (offset + width * n + k) 0) := by
  refine List.ext_getElem (by simp [recordAt]; omega) (fun k hk hk' => ?_)
  have hwidth : k < width := by simpa using hk'
  have hin : offset + width * n + k < image.length := by omega
  simp [recordAt, hin]

theorem countHeld_map {α : Type} (f : ι → Option α) (ids : List ι) :
    countHeld (ids.map f) = (ids.filter (fun i => (f i).isSome)).length := by
  simp [countHeld, List.filter_map, Function.comp_def]

/-! ### Axis records (test 5 of R187) -/

/-- The station addresses that configurations hold, one for each present record. -/
def stationsOf (held : ι → Option AxisConfig) (ids : List ι) : List Nat :=
  ids.filterMap (fun i => (held i).map AxisConfig.station)

theorem mem_stationsOf {held : ι → Option AxisConfig} {ids : List ι} {x : Nat} :
    x ∈ stationsOf held ids ↔ ∃ i ∈ ids, ∃ c, held i = some c ∧ c.station = x := by
  simp [stationsOf]

/-- Records that each read and name different stations, none of them seen before, are passed over: the test goes on
behind them. -/
theorem readAxes_passing {bytes : ι → List Byte} {held : ι → Option AxisConfig} {ids : List ι} (rest : List (List Byte))
    {n : Nat} {seen : List Nat} (hread : ∀ i ∈ ids, readAxis (bytes i) = some (held i))
    (hnodup : ((stationsOf held ids).reverse ++ seen).Nodup) :
    readAxes n seen (ids.map bytes ++ rest) =
      (readAxes (n + ids.length) ((stationsOf held ids).reverse ++ seen) rest).map (ids.map held ++ ·) := by
  induction ids generalizing n seen with
  | nil => exact (id_map _).symm
  | cons i ids ih =>
    have hi := hread i List.mem_cons_self
    have hids : ∀ k ∈ ids, readAxis (bytes k) = some (held k) := fun k hk => hread k (List.mem_cons_of_mem _ hk)
    rw [List.map_cons, List.cons_append, readAxes, hi, List.length_cons, Nat.add_comm ids.length 1, ← Nat.add_assoc]
    cases hheld : held i with
    | none =>
      have hstations : stationsOf held (i :: ids) = stationsOf held ids := by simp [stationsOf, hheld]
      rw [hstations] at hnodup ⊢
      simp only [ih hids hnodup, except_map_map, List.map_cons, hheld]
      rfl
    | some c =>
      have hstations : (stationsOf held (i :: ids)).reverse ++ seen =
          (stationsOf held ids).reverse ++ c.station :: seen := by simp [stationsOf, hheld]
      rw [hstations] at hnodup ⊢
      have hnew : c.station ∉ seen := (List.nodup_cons.1 (List.nodup_append.1 hnodup).2.1).1
      simp only [if_neg hnew, ih hids hnodup, except_map_map, List.map_cons, hheld]
      rfl

/-- Records that each read and name different stations are read to the end. -/
theorem readAxes_whole {bytes : ι → List Byte} {held : ι → Option AxisConfig} {ids : List ι}
    (hread : ∀ i ∈ ids, readAxis (bytes i) = some (held i)) (hnodup : (stationsOf held ids).Nodup) :
    readAxes 0 [] (ids.map bytes) = .ok (ids.map held) := by
  have h := readAxes_passing [] (n := 0) (seen := []) hread
    (by rw [List.append_nil]; exact List.nodup_reverse.2 hnodup)
  rw [List.append_nil, readAxes] at h
  exact h.trans (congrArg Except.ok (List.append_nil _))

/-- The configuration that axis record n of an image holds, when it passes test 5. -/
def imageConfig (image : List Byte) (n : AxisId) : Option AxisConfig :=
  if (imageAxis image n).present = 1 then some (rawConfig (imageAxis image n)) else none

section
variable (hlen : image.length = Config.imageSize)
include hlen

/-- An axis record of an image is tested as PUT AXIS tests its fields, but an absent one is not tested (R16, R187). -/
theorem readAxis_recordAt (n : AxisId) : readAxis (recordAt image 5 16 n.val) =
    if (imageAxis image n).present = 0 then some none else (checkConfig (imageAxis image n)).map some := by
  rw [recordAt_eq_getD (by rw [hlen]; have := n.isLt; simp only [Config.imageSize]; omega)]
  show (if (imageAxis image n).present = 0 then some none
    else if (imageAxis image n).present = 1 ∧ (rawConfig (imageAxis image n)).valid = true then
      some (some (rawConfig (imageAxis image n))) else none) = _
  rw [checkConfig]
  split_ifs <;> rfl

theorem readAxis_passes {n : AxisId} (h : ¬ AxisRecordFails image n) :
    readAxis (recordAt image 5 16 n.val) = some (imageConfig image n) := by
  rw [readAxis_recordAt hlen, imageConfig, checkConfig_eq]
  by_cases h0 : (imageAxis image n).present = 0
  · rw [if_pos h0, if_neg (by rw [h0]; decide)]
  · obtain ⟨h1, hrest⟩ := not_or.1 (fun hfail => h ⟨h0, hfail⟩)
    have h1 := not_not.1 h1
    have hlawful := not_not.1 (not_or.1 hrest).1
    rw [if_neg h0, if_pos ⟨h1, hlawful⟩, if_pos h1]
    rfl

end

theorem imageConfig_eq_some {n : AxisId} {c : AxisConfig} :
    imageConfig image n = some c ↔ (imageAxis image n).present = 1 ∧ rawConfig (imageAxis image n) = c := by
  simp [imageConfig]

theorem imageConfig_isSome (n : AxisId) :
    (imageConfig image n).isSome = decide ((imageAxis image n).present = 1) := by
  unfold imageConfig
  split <;> simp_all

/-- Records that pass test 5 name different stations. -/
theorem stationsOf_nodup {ids : List AxisId} (hrising : ids.Pairwise (· < ·))
    (hpass : ∀ i ∈ ids, ¬ AxisRecordFails image i) : (stationsOf (imageConfig image) ids).Nodup := by
  refine List.pairwise_filterMap.2 (hrising.imp_of_mem fun {a b} _ hb hab x hx y hy hxy => hpass b hb ?_)
  obtain ⟨c, hc, rfl⟩ := Option.map_eq_some_iff.1 hx
  obtain ⟨d, hd, rfl⟩ := Option.map_eq_some_iff.1 hy
  obtain ⟨ha1, rfl⟩ := imageConfig_eq_some.1 hc
  obtain ⟨hb1, rfl⟩ := imageConfig_eq_some.1 hd
  exact ⟨by rw [hb1]; decide, .inr (.inr ⟨a, hab, ha1, BitVec.eq_of_toNat_eq hxy⟩)⟩

section
variable (hlen : image.length = Config.imageSize)
include hlen

/-- A record that fails test 5 behind records whose stations have been seen ends the test. -/
theorem readAxes_failing {n : AxisId} {m : Nat} {seen : List Nat} (rest : List (List Byte))
    (hfail : AxisRecordFails image n)
    (hseen : ∀ k < n, ∀ c, imageConfig image k = some c → c.station ∈ seen) :
    readAxes m seen (recordAt image 5 16 n.val :: rest) = .error m := by
  obtain ⟨h0, hfail⟩ := hfail
  have hread := readAxis_recordAt hlen n
  rw [if_neg h0, checkConfig_eq] at hread
  by_cases hlawful : (imageAxis image n).present = 1 ∧ configLawful (imageAxis image n)
  · obtain ⟨k, hk, hk1, hstation⟩ := (hfail.resolve_left (not_not.2 hlawful.1)).resolve_left (not_not.2 hlawful.2)
    have hmem : (rawConfig (imageAxis image n)).station ∈ seen := by
      rw [show (rawConfig (imageAxis image n)).station = (rawConfig (imageAxis image k)).station from
        congrArg BitVec.toNat hstation.symm]
      exact hseen k hk _ (imageConfig_eq_some.2 ⟨hk1, rfl⟩)
    rw [if_pos hlawful] at hread
    simp only [readAxes, hread, Option.map_some, if_pos hmem]
  · rw [if_neg hlawful] at hread
    simp only [readAxes, hread, Option.map_none]

/-- The lowest axis record that fails test 5 is the one reported. -/
theorem readAxes_lowest {n : AxisId} (hfail : AxisRecordFails image n) (hlowest : ∀ k < n, ¬ AxisRecordFails image k) :
    readAxes 0 [] (records image 5 16 48) = .error n.val := by
  obtain ⟨before, after, hsplit, hcount, hbefore⟩ := finRange_split n
  have hpass : ∀ i ∈ before, ¬ AxisRecordFails image i := fun i hi => hlowest i ((hbefore i).1 hi)
  have hrising : before.Pairwise (· < ·) :=
    (List.pairwise_append.1 (hsplit ▸ List.pairwise_lt_finRange 48)).1
  have hnodup : ((stationsOf (imageConfig image) before).reverse ++ []).Nodup := by
    rw [List.append_nil, List.nodup_reverse]
    exact stationsOf_nodup hrising hpass
  rw [records_eq, hsplit, List.map_append, List.map_cons,
    readAxes_passing _ (fun i hi => readAxis_passes hlen (hpass i hi)) hnodup,
    readAxes_failing hlen _ hfail fun k hk c hc => ?_, hcount, Nat.zero_add]
  · rfl
  · rw [List.append_nil, List.mem_reverse]
    exact mem_stationsOf.2 ⟨k, (hbefore k).2 hk, c, hc, rfl⟩

theorem readAxes_all (hpass : ∀ n : AxisId, ¬ AxisRecordFails image n) :
    readAxes 0 [] (records image 5 16 48) = .ok ((List.finRange 48).map (imageConfig image)) := by
  rw [records_eq]
  exact readAxes_whole (fun n _ => readAxis_passes hlen (hpass n))
    (stationsOf_nodup (List.pairwise_lt_finRange 48) (fun n _ => hpass n))

end

/-! ### Pair records (test 6 of R187) -/

theorem readPairs_passing {bytes : ι → List Byte} {held : ι → Option ClashPair} {ids : List ι} (rest : List (List Byte))
    {n : Nat} (hread : ∀ i ∈ ids, readPair (bytes i) = some (held i)) :
    readPairs n (ids.map bytes ++ rest) = (readPairs (n + ids.length) rest).map (ids.map held ++ ·) := by
  induction ids generalizing n with
  | nil => exact (id_map _).symm
  | cons i ids ih =>
    have hids : ∀ k ∈ ids, readPair (bytes k) = some (held k) := fun k hk => hread k (List.mem_cons_of_mem _ hk)
    rw [List.length_cons, Nat.add_comm ids.length 1, ← Nat.add_assoc]
    simp only [List.map_cons, List.cons_append, readPairs, hread i List.mem_cons_self, ih hids, except_map_map]

theorem readPairs_whole {bytes : ι → List Byte} {held : ι → Option ClashPair} {ids : List ι}
    (hread : ∀ i ∈ ids, readPair (bytes i) = some (held i)) : readPairs 0 (ids.map bytes) = .ok (ids.map held) := by
  have h := readPairs_passing [] (n := 0) hread
  rw [List.append_nil, readPairs] at h
  exact h.trans (congrArg Except.ok (List.append_nil _))

section
variable {defined upper lower g1 g0 : Byte}

theorem readPair_undefined : readPair [0, upper, lower, g1, g0] = some none := rfl

theorem readPair_defined {u l : AxisId} (hu : u.val = upper.toNat) (hl : l.val = lower.toNat) (hne : upper ≠ lower)
    (hgap : (g1 ++ g0).toNat ≤ 5000) :
    readPair [1, upper, lower, g1, g0] = some (some ⟨u, l, (g1 ++ g0).toNat, none⟩) := by
  have hu := axisOf_some.2 hu
  have hl := axisOf_some.2 hl
  have hul : u ≠ l := fun e => hne ((axisOf_inj hu hl).1 e)
  have hlawful : u ≠ l ∧ (half g1 g0).toNat ≤ 5000 := ⟨hul, hgap⟩
  simp only [readPair, hu, hl, if_pos hlawful]
  rfl

theorem readPair_fails (h0 : defined ≠ 0) (h : defined ≠ 1 ∨ 47 < upper.toNat ∨ 47 < lower.toNat ∨ upper = lower ∨
    5000 < (g1 ++ g0).toNat) : readPair [defined, upper, lower, g1, g0] = none := by
  by_cases h1 : defined = 1
  · have h := h.resolve_left (not_not.2 h1)
    simp only [readPair, if_neg h0, if_pos h1]
    cases hu : axisOf upper with
    | none => rfl
    | some u =>
      cases hl : axisOf lower with
      | none => rfl
      | some l =>
        refine if_neg (fun hlawful => ?_)
        have hup := axisOf_some.1 hu
        have hlow := axisOf_some.1 hl
        rcases h with h | h | h | h
        · omega
        · omega
        · exact hlawful.1 ((axisOf_inj hu hl).2 h)
        · exact Nat.not_lt.2 hlawful.2 h
  · simp only [readPair, if_neg h0, if_neg h1]

end

/-- The pair that pair record n of an image holds, when it passes test 6. -/
def imageClash (image : List Byte) (n : PairId) : Option ClashPair :=
  if imagePair image n 0 = 1 then
    (axisOf (imagePair image n 1)).bind fun u => (axisOf (imagePair image n 2)).map fun l =>
      ⟨u, l, (imagePair image n 3 ++ imagePair image n 4).toNat, none⟩
  else none

theorem imageClash_undefined {n : PairId} (h : imagePair image n 0 ≠ 1) : imageClash image n = none := if_neg h

theorem imageClash_defined {n : PairId} {u l : AxisId} (h : imagePair image n 0 = 1)
    (hu : u.val = (imagePair image n 1).toNat) (hl : l.val = (imagePair image n 2).toNat) :
    imageClash image n = some ⟨u, l, (imagePair image n 3 ++ imagePair image n 4).toNat, none⟩ := by
  rw [imageClash, if_pos h, axisOf_some.2 hu, axisOf_some.2 hl]
  rfl

section
variable (hlen : image.length = Config.imageSize) {n : PairId}

/-- A defined record that passes test 6 names two axes. -/
theorem pairRecord_axes (h1 : imagePair image n 0 = 1) (h : ¬ PairRecordFails image n) :
    ∃ u l : AxisId, u.val = (imagePair image n 1).toNat ∧ l.val = (imagePair image n 2).toNat ∧
      imagePair image n 1 ≠ imagePair image n 2 ∧ (imagePair image n 3 ++ imagePair image n 4).toNat ≤ 5000 := by
  have h0 : imagePair image n 0 ≠ 0 := by rw [h1]; decide
  have h := not_or.1 (fun hfail => h ⟨h0, hfail⟩)
  simp only [not_or, not_lt] at h
  obtain ⟨-, hu, hl, hne, hgap⟩ := h
  exact ⟨⟨_, Nat.lt_succ_of_le hu⟩, ⟨_, Nat.lt_succ_of_le hl⟩, rfl, rfl, hne, hgap⟩

theorem imageClash_isSome (h : ¬ PairRecordFails image n) :
    (imageClash image n).isSome = decide (imagePair image n 0 = 1) := by
  by_cases h1 : imagePair image n 0 = 1
  · obtain ⟨u, l, hu, hl, -, -⟩ := pairRecord_axes h1 h
    rw [imageClash_defined h1 hu hl, decide_eq_true h1]
    rfl
  · rw [imageClash_undefined h1, decide_eq_false h1]
    rfl

include hlen

theorem pairRecord_bytes (n : PairId) : recordAt image 773 5 n.val =
    [imagePair image n 0, imagePair image n 1, imagePair image n 2, imagePair image n 3, imagePair image n 4] :=
  recordAt_eq_getD (by rw [hlen]; have := n.isLt; simp only [Config.imageSize]; omega)

theorem readPair_passes (h : ¬ PairRecordFails image n) :
    readPair (recordAt image 773 5 n.val) = some (imageClash image n) := by
  rw [pairRecord_bytes hlen]
  by_cases h0 : imagePair image n 0 = 0
  · rw [imageClash_undefined (by rw [h0]; decide), h0, readPair_undefined]
  · have h1 : imagePair image n 0 = 1 := by_contra fun h1 => h ⟨h0, .inl h1⟩
    obtain ⟨u, l, hu, hl, hne, hgap⟩ := pairRecord_axes h1 h
    rw [imageClash_defined h1 hu hl, h1, readPair_defined hu hl hne hgap]

/-- The lowest pair record that fails test 6 is the one reported. -/
theorem readPairs_lowest (hfail : PairRecordFails image n) (hlowest : ∀ k < n, ¬ PairRecordFails image k) :
    readPairs 0 (records image 773 5 32) = .error n.val := by
  obtain ⟨before, after, hsplit, hcount, hbefore⟩ := finRange_split n
  have hpass : ∀ i ∈ before, readPair (recordAt image 773 5 i.val) = some (imageClash image i) :=
    fun i hi => readPair_passes hlen (hlowest i ((hbefore i).1 hi))
  obtain ⟨h0, hfail⟩ := hfail
  have hnone : readPair (recordAt image 773 5 n.val) = none := by
    rw [pairRecord_bytes hlen, readPair_fails h0 hfail]
  rw [records_eq, hsplit, List.map_append, List.map_cons, readPairs_passing _ hpass, hcount, Nat.zero_add]
  simp only [readPairs, hnone]
  rfl

theorem readPairs_all (hpass : ∀ n : PairId, ¬ PairRecordFails image n) :
    readPairs 0 (records image 773 5 32) = .ok ((List.finRange 32).map (imageClash image)) := by
  rw [records_eq]
  exact readPairs_whole (fun n _ => readPair_passes hlen (hpass n))

end

/-! ### The judgement of the records (R187) -/

theorem judgeRecords_axis {n : Nat} (h : readAxes 0 [] (records image 5 16 48) = .error n) :
    judgeRecords image = (.axis n, .empty) := by
  simp only [judgeRecords, h]

section
variable {axes : List (Option AxisConfig)} (haxes : readAxes 0 [] (records image 5 16 48) = .ok axes)
include haxes

theorem judgeRecords_pair {n : Nat} (h : readPairs 0 (records image 773 5 32) = .error n) :
    judgeRecords image = (.pair n, .empty) := by
  simp only [judgeRecords, haxes, h]

theorem judgeRecords_loaded {pairs : List (Option ClashPair)} (h : readPairs 0 (records image 773 5 32) = .ok pairs) :
    judgeRecords image = (.loaded (countHeld axes) (countHeld pairs), ⟨axes, pairs⟩) := by
  simp only [judgeRecords, haxes, h]

end

/-- Settles O5: the first four tests are branches of the judgement, and the records are tested in ascending order. -/
theorem the_load_tests_are_made_in_order : Obligations.the_load_tests_are_made_in_order := by
  refine fun image => ⟨fun hblank => congrArg Prod.fst (judgeImage_blank hblank),
    fun hblank hmarker => congrArg Prod.fst (judgeImage_marker hblank hmarker),
    fun hmarker hformat => congrArg Prod.fst (judgeImage_format hmarker hformat),
    fun hmarker hformat hcrc => congrArg Prod.fst (judgeImage_crc hmarker hformat hcrc),
    fun hlen hmarker hformat hcrc => ?_, judgeImage_unloaded⟩
  rw [judgeImage_checked hmarker hformat hcrc]
  refine ⟨fun n hfail hlowest => congrArg Prod.fst (judgeRecords_axis (readAxes_lowest hlen hfail hlowest)),
    fun haxes => ⟨fun n hfail hlowest => congrArg Prod.fst
      (judgeRecords_pair (readAxes_all hlen haxes) (readPairs_lowest hlen hfail hlowest)), fun hpairs => ?_⟩⟩
  rw [judgeRecords_loaded (readAxes_all hlen haxes) (readPairs_all hlen hpairs)]
  refine ⟨?_, fun n => ?_, List.length_map _, List.length_map _, fun n h0 => ?_, fun n u l h1 hu hl => ?_⟩
  · simp only [countHeld_map, imageConfig_isSome, imageClash_isSome (hpairs _)]
  · simp [imageConfig]
  · simp [imageClash_undefined (n := n) (by rw [h0]; decide)]
  · simp [imageClash_defined h1 hu hl]

end Sys2Proof.Machine

namespace Sys2Proof.Machine

-- Declarations are elaborated one at a time: the threads of the whole text would pass the limit of the check.
set_option Elab.async false

variable {s : State}

/-! ### Numbers written and read back (R193, R197) -/

theorem byteOf_toNat {n : Nat} (h : n < 256) : (byteOf n).toNat = n := by
  rw [byteOf, BitVec.toNat_ofNat, Nat.mod_eq_of_lt h]

/-- A two-byte number reads back as it was written. -/
theorem half_be16 {n : Nat} (h : n < 65536) : (half (byteOf (n / 256)) (byteOf n)).toNat = n := by
  have hlow : (byteOf n).toNat < 2 ^ 8 := (byteOf n).isLt
  rw [half, BitVec.toNat_append, ← Nat.shiftLeft_add_eq_or_of_lt hlow,
    Nat.shiftLeft_eq, byteOf_toNat (by omega), byteOf, BitVec.toNat_ofNat]
  omega

/-! ### Records written and read back (R186, R187, R197) -/

/-- A lawful configuration is in the ranges of Table 1-1, so its fields fit the record (Table 12-7). -/
theorem readAxis_axisBytes {held : Option AxisConfig} (h : ∀ c, held = some c → c.valid = true) :
    readAxis (axisBytes held) = some held := by
  cases held with
  | none => rfl
  | some c =>
    have hvalid := h c rfl
    have hranges := hvalid
    simp only [AxisConfig.valid, within, Bool.and_eq_true, decide_eq_true_eq] at hranges
    have hread : rawConfig ⟨1, byteOf c.station, half (byteOf (c.low / 256)) (byteOf c.low),
        half (byteOf (c.high / 256)) (byteOf c.high), half (byteOf (c.vmax / 256)) (byteOf c.vmax),
        half (byteOf (c.rampFloor / 256)) (byteOf c.rampFloor),
        half (byteOf (c.followLimit / 256)) (byteOf c.followLimit),
        half (byteOf (c.loadMin / 256)) (byteOf c.loadMin),
        half (byteOf (c.loadMax / 256)) (byteOf c.loadMax)⟩ = c := by
      simp only [rawConfig]
      rw [byteOf_toNat (by omega), half_be16 (by omega), half_be16 (by omega), half_be16 (by omega),
        half_be16 (by omega), half_be16 (by omega), half_be16 (by omega), half_be16 (by omega)]
    simp only [axisBytes, be16, List.cons_append, List.nil_append, readAxis, hread, hvalid]
    rfl

/-- A saved pair keeps its axes and its gap; the last gap is not in the image (R186). -/
theorem readPair_pairBytes {held : Option ClashPair} (h : ∀ pr, held = some pr → pr.upper ≠ pr.lower ∧ pr.gap ≤ 5000) :
    readPair (pairBytes held) = some (held.map (fun pr => { pr with lastGap := none })) := by
  cases held with
  | none => rfl
  | some pr =>
    obtain ⟨hne, hgap⟩ := h pr rfl
    have hbyte (a : AxisId) : (byteOf a.val).toNat = a.val := byteOf_toNat (by omega)
    have hfit : (byteOf (pr.gap / 256) ++ byteOf pr.gap).toNat = pr.gap := half_be16 (by omega)
    have hnames : byteOf pr.upper.val ≠ byteOf pr.lower.val := by
      refine fun e => hne (Fin.ext ?_)
      rw [← hbyte pr.upper, e, hbyte]
    have hread := readPair_defined (hbyte pr.upper).symm (hbyte pr.lower).symm hnames (hfit.trans_le hgap)
    rw [hfit] at hread
    exact hread

/-! ### The image formed (R186, R189) -/

theorem length_flatten_of_width {chunks : List (List Byte)} {w : Nat} (h : ∀ c ∈ chunks, c.length = w) :
    chunks.flatten.length = chunks.length * w := by
  rw [List.length_flatten, List.eq_replicate_of_mem (l := chunks.map List.length) (a := w) (by simpa using h)]
  simp

theorem records_succ (image : List Byte) (offset width count : Nat) : records image offset width (count + 1) =
    (image.drop offset).take width :: records image (offset + width) width count := by
  have hoffset (n : Nat) : offset + width * (n + 1) = offset + width + width * n := by ring
  simp [records, List.range_succ_eq_map, Function.comp_def, hoffset]

/-- Records laid end to end are found again by their offset. -/
theorem records_flatten {chunks : List (List Byte)} {w : Nat} (hwidth : ∀ c ∈ chunks, c.length = w)
    (before after : List Byte) :
    records (before ++ chunks.flatten ++ after) before.length w chunks.length = chunks := by
  induction chunks generalizing before with
  | nil => rfl
  | cons c chunks ih =>
    have hc : c.length = w := hwidth c List.mem_cons_self
    have htail := ih (fun d hd => hwidth d (List.mem_cons_of_mem _ hd)) (before ++ c)
    rw [List.length_append, hc] at htail
    have hbytes : before ++ (c :: chunks).flatten ++ after = before ++ c ++ chunks.flatten ++ after := by simp
    rw [hbytes, List.length_cons, records_succ, htail, List.append_assoc, List.append_assoc, List.drop_left,
      List.take_left' hc]

theorem length_axisBytes (held : Option AxisConfig) : (axisBytes held).length = 16 := by cases held <;> rfl

theorem length_pairBytes (held : Option ClashPair) : (pairBytes held).length = 5 := by cases held <;> rfl

/-- The header of the image that SAVE IMAGE forms: marker, version and the two counts. -/
def imageHeader : List Byte := [0x4C, 0x43, 1, 48, 32]

/-- The axis records of that image. -/
def axisRecords (s : State) : List (List Byte) := (List.finRange 48).map (fun a => axisBytes (s.axis a).config)

/-- The pair records of that image. -/
def pairRecords (s : State) : List (List Byte) := (List.finRange 32).map (fun n => pairBytes (s.pairs.get n))

/-- The bytes of that image that its CRC covers. -/
def coveredBytes (s : State) : List Byte := imageHeader ++ (axisRecords s).flatten ++ (pairRecords s).flatten

theorem formImage_eq (s : State) : formImage s = coveredBytes s ++ crcBytes (coveredBytes s) := by
  have haxes : s.axes.cells.map (fun ax => axisBytes ax.config) = axisRecords s := by
    rw [Table.cells_eq, List.map_map]
    rfl
  have hpairs : s.pairs.cells.map pairBytes = pairRecords s := by
    rw [Table.cells_eq, List.map_map]
    rfl
  rw [formImage, haxes, hpairs]
  rfl

theorem axisRecords_width (s : State) : ∀ c ∈ axisRecords s, c.length = 16 := by
  simp [axisRecords, length_axisBytes]

theorem pairRecords_width (s : State) : ∀ c ∈ pairRecords s, c.length = 5 := by
  simp [pairRecords, length_pairBytes]

theorem length_axisRecords (s : State) : (axisRecords s).length = 48 := by simp [axisRecords]

theorem length_pairRecords (s : State) : (pairRecords s).length = 32 := by simp [pairRecords]

/-- The pair records begin at byte 773 (Table 12-6a). -/
theorem length_before_pairs (s : State) : (imageHeader ++ (axisRecords s).flatten).length = 773 := by
  rw [List.length_append, length_flatten_of_width (axisRecords_width s), length_axisRecords]
  rfl

theorem length_coveredBytes (s : State) : (coveredBytes s).length = 933 := by
  rw [coveredBytes, List.length_append, length_before_pairs, length_flatten_of_width (pairRecords_width s),
    length_pairRecords]

theorem length_formImage (s : State) : (formImage s).length = Config.imageSize := by
  rw [formImage_eq, List.length_append, length_coveredBytes]
  rfl

theorem formImage_take (s : State) : (formImage s).take 933 = coveredBytes s := by
  rw [formImage_eq, List.take_left' (length_coveredBytes s)]

theorem formImage_drop (s : State) : (formImage s).drop 933 = crcBytes (coveredBytes s) := by
  rw [formImage_eq, List.drop_left' (length_coveredBytes s)]

theorem records_formImage_axes (s : State) : records (formImage s) 5 16 48 = axisRecords s := by
  have h := records_flatten (axisRecords_width s) imageHeader ((pairRecords s).flatten ++ crcBytes (coveredBytes s))
  rw [length_axisRecords] at h
  rw [formImage_eq, coveredBytes, List.append_assoc _ (pairRecords s).flatten]
  exact h

theorem records_formImage_pairs (s : State) : records (formImage s) 773 5 32 = pairRecords s := by
  have h := records_flatten (pairRecords_width s) (imageHeader ++ (axisRecords s).flatten) (crcBytes (coveredBytes s))
  rw [length_pairRecords, length_before_pairs] at h
  rw [formImage_eq, coveredBytes]
  exact h

/-- The image formed passes the tests of its marker, its format and its CRC (R187). -/
theorem judgeImage_formImage (s : State) : judgeImage (formImage s) = judgeRecords (formImage s) := by
  refine judgeImage_checked ?_ ?_ ?_
  · rw [formImage_eq]; rfl
  · rw [formImage_eq]; rfl
  · rw [formImage_take, formImage_drop]; rfl

/-! ### The image loaded back (R187, R198) -/

/-- The stations of a lawful configuration differ (R1). -/
theorem stationsOf_lawful (h : ConfigurationLawful s) :
    (stationsOf (fun a => (s.axis a).config) (List.finRange 48)).Nodup := by
  obtain ⟨-, hstations, -⟩ := h
  refine (List.nodup_finRange 48).filterMap (fun a b x ha hb => ?_)
  obtain ⟨c, hc, hcx⟩ := Option.map_eq_some_iff.1 ha
  obtain ⟨d, hd, hdx⟩ := Option.map_eq_some_iff.1 hb
  exact hstations a b c d hc hd (hcx.trans hdx.symm)

theorem readAxes_formImage (h : ConfigurationLawful s) :
    readAxes 0 [] (records (formImage s) 5 16 48) = .ok ((List.finRange 48).map (fun a => (s.axis a).config)) := by
  have hnodup := stationsOf_lawful h
  obtain ⟨hvalid, -, -⟩ := h
  have hread : ∀ a ∈ List.finRange 48, readAxis (axisBytes (s.axis a).config) = some (s.axis a).config :=
    fun a _ => readAxis_axisBytes (hvalid a)
  rw [records_formImage_axes]
  exact readAxes_whole hread hnodup

theorem readPairs_formImage (h : ConfigurationLawful s) : readPairs 0 (records (formImage s) 773 5 32) =
    .ok ((List.finRange 32).map (fun n => (s.pairs.get n).map (fun pr => { pr with lastGap := none }))) := by
  obtain ⟨-, -, hpairs⟩ := h
  rw [records_formImage_pairs]
  exact readPairs_whole (fun n _ => readPair_pairBytes (hpairs n))

/-- Settles O7: the records of the image formed are read back one by one, each as it was written. -/
theorem a_saved_image_loads_back_whole : Obligations.a_saved_image_loads_back_whole := by
  intro s h
  refine ⟨length_formImage s, ?_⟩
  rw [judgeImage_formImage, judgeRecords_loaded (readAxes_formImage h) (readPairs_formImage h)]
  simp only [countHeld_map, Option.isSome_map]

end Sys2Proof.Machine

namespace Sys2Proof.Machine

variable {s : State} {c : Instr} {rest : List Instr}

/-! ### The command a step takes (log entry 2) -/

@[simp] theorem State.withPending_withPending (q q' : List Instr) :
    (s.withPending q).withPending q' = s.withPending q' := rfl

theorem step_of_pending_nil (h : s.pending = []) : step s = .next s := by
  simp only [step, h]

theorem step_of_pending_cons (h : s.pending = c :: rest) : step s = exec c (s.withPending rest) := by
  simp only [step, h]

/-- Settles O1: the two cases of the queue; the queue first put in place is replaced by its rest. -/
theorem step_takes_the_front_command : Obligations.step_takes_the_front_command := by
  refine ⟨fun c rest s => ?_, fun _ => step_of_pending_nil⟩
  calc step (s.withPending (c :: rest))
      = exec c ((s.withPending (c :: rest)).withPending rest) := step_of_pending_cons (s.withPending_pending _)
    _ = exec c (s.withPending rest) := by rw [State.withPending_withPending]

end Sys2Proof.Machine
